-- ==== Sys2Proof/Word.lean ====
section
/-! DEFINITION. Widths of the fields that records carry on the links (spec 11, Table 11-3), and the indices
of the device's replicated blocks (spec 00, Table 0-1). -/

namespace Sys2Proof

/-- One byte of a record: channel, train, panel, bank, count, flag and enumeration fields. -/
abbrev Byte := BitVec 8

/-- Two bytes, most significant first: clip id, extent, extent count, lever position. -/
abbrev Half := BitVec 16

/-- Four bytes, most significant first: serial, page, frame count, time, delay, speed, acceleration. -/
abbrev Word := BitVec 32

/-- Channels A to F are 0 to 5. -/
abbrev ChannelId := Fin 6

/-- Trains 0 to 15. -/
abbrev TrainId := Fin 16

/-- Panels 0 to 3. -/
abbrev PanelId := Fin 4

end Sys2Proof
end

