-- ==== Sys2Proof/Syntax.lean ====
section
/-! DEFINITION. The commands of the 7240: one constructor of `Instr` for each row of spec/opcode_table.json,
with the fields its record carries, in the order its rule lists them (spec 11, R193). -/

namespace Sys2Proof

/-- End actions (Table 11-4). -/
inductive EndAction where
  | stop | loop | bounce | next
  deriving DecidableEq, Repr

/-- The six report classes, in the order of Table 10-2 and Table 11-4. -/
inductive ReportClass where
  | transport | edge | clip | train | runlog | fault
  deriving DecidableEq, Repr

/-- The seven links (Table 0-2). -/
inductive Link where
  | control | ingest | playout
  | panel (p : PanelId)
  deriving DecidableEq, Repr

/-- The two outgoing lanes that carry answers in the order they were formed (R192). -/
inductive AnswerLane where
  | ingest | playout
  deriving DecidableEq, Repr

/-- A timecode field: hh, mm, ss, ff and the phase (Table 11-3). -/
structure TimecodeField where
  hh : Byte
  mm : Byte
  ss : Byte
  ff : Byte
  phase : Byte
  deriving DecidableEq, Repr

/-- One of the three parts of SET_CLIP_PLAY: keep, clear, or a value (R147, R193). -/
inductive Part (α : Type) where
  | keep
  | clear
  | value (v : α)
  deriving DecidableEq, Repr

/-- The body of a command record as the command port meets it (R179, R193): its fields; or a body whose length
does not fit the kind, answered BAD_LENGTH; or a body of the right length in which a presence, mode, flag or
enumeration byte (the first byte of a name counts as one) lies outside its listed values, answered BAD_VALUE. -/
inductive Sent (α : Type) where
  | fields (a : α)
  | badLength
  | badByte
  deriving DecidableEq, Repr

/-- CONFIGURE_TRAIN (R7). -/
structure ConfigureTrainArgs where
  train : Byte
  first : Half
  count : Half
  multiple : Byte
  deriving DecidableEq, Repr

/-- TIMEBASE (R28). -/
structure TimebaseArgs where
  rate : Byte
  drop : Bool
  deriving DecidableEq, Repr

/-- QUERY_ANCHORS (R43). -/
structure QueryAnchorsArgs where
  train : Byte
  start : Byte
  deriving DecidableEq, Repr

/-- LOAD_CLIP (R72). -/
structure LoadClipArgs where
  channel : Byte
  clip : Half
  angle : Option Byte
  deriving DecidableEq, Repr

/-- SELECT_TRAIN (R74) and GANG (R156). -/
structure ChannelTrainArgs where
  channel : Byte
  train : Byte
  deriving DecidableEq, Repr

/-- PLAY (R76). -/
structure PlayArgs where
  channel : Byte
  speed : Option Word
  deriving DecidableEq, Repr

/-- SET_SPEED (R77) and SET_ACCEL (R92): a channel and a signed four-byte field. -/
structure ChannelWordArgs where
  channel : Byte
  value : Word
  deriving DecidableEq, Repr

/-- GOTO (R79): a serial, or a timecode label with its phase. -/
structure GotoArgs where
  channel : Byte
  serial : Option Word
  timecode : Option TimecodeField
  deriving DecidableEq, Repr

/-- LIVE (R80). -/
structure LiveArgs where
  channel : Byte
  delay : Option Word
  deriving DecidableEq, Repr

/-- SET_BLEND (R92). -/
structure SetBlendArgs where
  channel : Byte
  blend : Bool
  deriving DecidableEq, Repr

/-- SET_END_ACTION (R92). -/
structure SetEndActionArgs where
  channel : Byte
  action : EndAction
  deriving DecidableEq, Repr

/-- A channel and a one-byte number: SET_TARGET_BANK (R92), ANGLE (R150), QUEUE_REMOVE (R166), QUERY_QUEUE (R168). -/
structure ChannelByteArgs where
  channel : Byte
  value : Byte
  deriving DecidableEq, Repr

/-- SET_ANGLE_GROUP (R93). -/
structure AngleGroupArgs where
  channel : Byte
  trains : List Byte
  deriving DecidableEq, Repr

/-- BIND (R97): the channel field is A to F as 0 to 5, or none as 0xFF. -/
structure BindArgs where
  panel : Byte
  channel : Byte
  deriving DecidableEq, Repr

/-- A point of a shuttle curve as SET_CURVE carries it (R99): lever position L, speed S, both signed. -/
structure CurvePointField where
  lever : Half
  speed : Word
  deriving DecidableEq, Repr

/-- SET_CURVE (R99). -/
structure SetCurveArgs where
  panel : Byte
  points : List CurvePointField
  deriving DecidableEq, Repr

/-- SET_SILENCE (R107). -/
structure SetSilenceArgs where
  panel : Byte
  ms : Word
  deriving DecidableEq, Repr

/-- TRIM_CLIP (R139). -/
structure TrimClipArgs where
  clip : Half
  angle : Byte
  inSerial : Word
  outSerial : Word
  deriving DecidableEq, Repr

/-- RENAME (R146): the characters of the name, in order. -/
structure RenameArgs where
  clip : Half
  name : List Byte
  deriving DecidableEq, Repr

/-- RATE (R146). -/
structure RateArgs where
  clip : Half
  rating : Byte
  deriving DecidableEq, Repr

/-- The bounce settings as SET_CLIP_PLAY carries them (R147). -/
structure BounceField where
  forwardSpeed : Word
  reverseSpeed : Word
  passes : Byte
  deriving DecidableEq, Repr

/-- SET_CLIP_PLAY (R147). -/
structure SetClipPlayArgs where
  clip : Half
  endAction : Part EndAction
  speed : Part Word
  bounce : Part BounceField
  deriving DecidableEq, Repr

/-- LIST_BANK (R149). -/
structure ListBankArgs where
  bank : Byte
  start : Byte
  deriving DecidableEq, Repr

/-- QUEUE_ADD (R165). -/
structure QueueAddArgs where
  channel : Byte
  clip : Half
  angle : Option Byte
  speed : Option Word
  position : Option Byte
  deriving DecidableEq, Repr

/-- One class setting of SET_REPORTS (R182). -/
structure ReportSettingField where
  cls : ReportClass
  enabled : Bool
  priority : Byte
  deriving DecidableEq, Repr

/-- SET_ALARM (R188): the mask has one bit per fault kind, in the order of Table 11-4, from bit 0. -/
structure SetAlarmArgs where
  mask : Byte
  hold : Word
  deriving DecidableEq, Repr

/-- The commands: one constructor per row of the opcode table, in the table's order. A command of the control
link carries its tag and its body (`Sent`). -/
inductive Instr where
  | powerOnReset
  | resetInputRelease
  | commandArrival (kind tag : Byte) (body : List Byte)
  | unknownKind (kind tag : Byte)
  | configureTrain (tag : Byte) (a : Sent ConfigureTrainArgs)
  | releaseTrain (tag : Byte) (a : Sent Byte)
  | startTrain (tag : Byte) (a : Sent Byte)
  | stopTrain (tag : Byte) (a : Sent Byte)
  | timebase (tag : Byte) (a : Sent TimebaseArgs)
  | queryAnchors (tag : Byte) (a : Sent QueryAnchorsArgs)
  | loadClip (tag : Byte) (a : Sent LoadClipArgs)
  | selectTrain (tag : Byte) (a : Sent ChannelTrainArgs)
  | unload (tag : Byte) (a : Sent Byte)
  | play (tag : Byte) (a : Sent PlayArgs)
  | setSpeed (tag : Byte) (a : Sent ChannelWordArgs)
  | pause (tag : Byte) (a : Sent Byte)
  | goto (tag : Byte) (a : Sent GotoArgs)
  | live (tag : Byte) (a : Sent LiveArgs)
  | setAccel (tag : Byte) (a : Sent ChannelWordArgs)
  | setBlend (tag : Byte) (a : Sent SetBlendArgs)
  | setEndAction (tag : Byte) (a : Sent SetEndActionArgs)
  | setTargetBank (tag : Byte) (a : Sent ChannelByteArgs)
  | setAngleGroup (tag : Byte) (a : Sent AngleGroupArgs)
  | angle (tag : Byte) (a : Sent ChannelByteArgs)
  | angleNext (tag : Byte) (a : Sent Byte)
  | gang (tag : Byte) (a : Sent ChannelTrainArgs)
  | ungang (tag : Byte) (a : Sent Byte)
  | bind (tag : Byte) (a : Sent BindArgs)
  | setCurve (tag : Byte) (a : Sent SetCurveArgs)
  | queryCurve (tag : Byte) (a : Sent Byte)
  | setSilence (tag : Byte) (a : Sent SetSilenceArgs)
  | markIn (tag : Byte) (a : Sent Byte)
  | markOut (tag : Byte) (a : Sent Byte)
  | clearMarks (tag : Byte) (a : Sent Byte)
  | take (tag : Byte) (a : Sent Byte)
  | lockClip (tag : Byte) (a : Sent Half)
  | unlockClip (tag : Byte) (a : Sent Half)
  | trimClip (tag : Byte) (a : Sent TrimClipArgs)
  | deleteClip (tag : Byte) (a : Sent Half)
  | clearBank (tag : Byte) (a : Sent Byte)
  | clearAll (tag : Byte) (a : Sent Unit)
  | guardBank (tag : Byte) (a : Sent Byte)
  | unguardBank (tag : Byte) (a : Sent Byte)
  | rename (tag : Byte) (a : Sent RenameArgs)
  | rate (tag : Byte) (a : Sent RateArgs)
  | setClipPlay (tag : Byte) (a : Sent SetClipPlayArgs)
  | queryClip (tag : Byte) (a : Sent Half)
  | listBank (tag : Byte) (a : Sent ListBankArgs)
  | queueAdd (tag : Byte) (a : Sent QueueAddArgs)
  | queueRemove (tag : Byte) (a : Sent ChannelByteArgs)
  | queueClear (tag : Byte) (a : Sent Byte)
  | queryQueue (tag : Byte) (a : Sent ChannelByteArgs)
  | queueStart (tag : Byte) (a : Sent Byte)
  | queueNext (tag : Byte) (a : Sent Byte)
  | readRunlog (tag : Byte) (a : Sent Byte)
  | flushRunlog (tag : Byte) (a : Sent Unit)
  | setReports (tag : Byte) (a : Sent (List ReportSettingField))
  | queryStatusSummary (tag : Byte) (a : Sent Unit)
  | queryStatusTrains (tag : Byte) (a : Sent Byte)
  | queryStatusChannels (tag : Byte) (a : Sent Byte)
  | queryStatusPanels (tag : Byte) (a : Sent Unit)
  | readFaults (tag : Byte) (a : Sent Unit)
  | clearFaults (tag : Byte) (a : Sent Unit)
  | setAlarm (tag : Byte) (a : Sent SetAlarmArgs)
  | resetAll (tag : Byte) (a : Sent Unit)
  | resetPlayback (tag : Byte) (a : Sent Unit)
  | frameOpen (tag train : Byte) (label : TimecodeField)
  | frameDone (tag train : Byte) (page : Word) (good : Bool)
  | frameRequest (tag channel : Byte) (n : Word)
  | wheel (panel : PanelId) (lever : Half)
  | jog (panel : PanelId) (count : Byte)
  | key (panel : PanelId) (code press : Byte)
  | ignoredPanelRecord (panel : PanelId)
  | deadManExpiry (panel : PanelId)
  | echoSent (panel : PanelId)
  | controlRecordSent
  | answerSent (lane : AnswerLane)
  | holdEnd
  | framingDiscard (link : Link) (byte : Byte)
  | receiverTimeout (link : Link)
  | receivedByte (link : Link) (byte : Byte)
  deriving DecidableEq, Repr

end Sys2Proof
end

