-- ==== Sys2Proof/Decode.lean ====
section
/-! DEFINITION. Reading a command from the bytes of its record on the control link (spec 11, R193, Tables 11-2 to
11-4), and the host's question about words of the opcode table, whose rows have no bits (log 26). -/

namespace Sys2Proof

/-! ## Fields (Table 11-3) -/

/-- A two-byte field, most significant byte first. -/
def half (a b : Byte) : Half := a ++ b

/-- A four-byte field, most significant byte first. -/
def word (a b c d : Byte) : Word := a ++ b ++ c ++ d

/-- A flag byte: 0 or 1. -/
def flagOf (b : Byte) : Option Bool := if b = 0 then some false else if b = 1 then some true else none

/-- An optional field behind its presence byte: `none` when that byte is neither 0 nor 1 (R193, log 33). -/
def optionalOf {α : Type} (presence : Byte) (a : α) : Option (Option α) :=
  (flagOf presence).map fun p => if p then some a else none

/-- An end action (Table 11-4). -/
def endActionOf (b : Byte) : Option EndAction :=
  match b.toNat with
  | 0 => some .stop
  | 1 => some .loop
  | 2 => some .bounce
  | 3 => some .next
  | _ => none

/-- A report class (Table 11-4). -/
def reportClassOf (b : Byte) : Option ReportClass :=
  match b.toNat with
  | 0 => some .transport
  | 1 => some .edge
  | 2 => some .clip
  | 3 => some .train
  | 4 => some .runlog
  | 5 => some .fault
  | _ => none

/-- A part of SET_CLIP_PLAY behind its mode byte. Its bytes follow in every mode: `none` when they do not read, or
when the mode is none of the three (R193); in modes keep and clear the value they hold is not used (log 33). -/
def partOf {α : Type} (mode : Byte) (a : Option α) : Option (Part α) :=
  a.bind fun v =>
    match mode.toNat with
    | 0 => some .keep
    | 1 => some .clear
    | 2 => some (.value v)
    | _ => none

/-- A timecode field that may be absent: hh = 0xFF and the rest 0 (log 11). -/
def timecodeOf? (hh mm ss ff p : Byte) : Option TimecodeField :=
  if hh = 0xFF ∧ mm = 0 ∧ ss = 0 ∧ ff = 0 ∧ p = 0 then none
  else some { hh := hh, mm := mm, ss := ss, ff := ff, phase := p }

/-- A body whose bytes were read, or BAD_VALUE for a byte outside its listed values (R193). -/
def Sent.ofOption {α : Type} : Option α → Sent α
  | some a => .fields a
  | none => .badByte

/-! ## Bodies of a fixed length -/

/-- No field. -/
def emptyBody : List Byte → Sent Unit
  | [] => .fields ()
  | _ => .badLength

/-- One byte: a channel, a train, a panel, a bank, a count. -/
def byteBody : List Byte → Sent Byte
  | [b] => .fields b
  | _ => .badLength

/-- A clip id. -/
def halfBody : List Byte → Sent Half
  | [a, b] => .fields (half a b)
  | _ => .badLength

/-- CONFIGURE_TRAIN. -/
def configureTrainBody : List Byte → Sent ConfigureTrainArgs
  | [t, f1, f2, c1, c2, m] => .fields { train := t, first := half f1 f2, count := half c1 c2, multiple := m }
  | _ => .badLength

/-- TIMEBASE: the counting mode is 0 for non-drop and 1 for drop-frame (log 10). -/
def timebaseBody : List Byte → Sent TimebaseArgs
  | [r, m] => .ofOption ((flagOf m).map fun d => { rate := r, drop := d })
  | _ => .badLength

/-- QUERY_ANCHORS. -/
def queryAnchorsBody : List Byte → Sent QueryAnchorsArgs
  | [t, n] => .fields { train := t, start := n }
  | _ => .badLength

/-- LOAD_CLIP. -/
def loadClipBody : List Byte → Sent LoadClipArgs
  | [c, i1, i2, p, a] => .ofOption ((optionalOf p a).map fun g => { channel := c, clip := half i1 i2, angle := g })
  | _ => .badLength

/-- SELECT_TRAIN and GANG. -/
def channelTrainBody : List Byte → Sent ChannelTrainArgs
  | [c, t] => .fields { channel := c, train := t }
  | _ => .badLength

/-- PLAY. -/
def playBody : List Byte → Sent PlayArgs
  | [c, p, v1, v2, v3, v4] =>
    .ofOption ((optionalOf p (word v1 v2 v3 v4)).map fun v => { channel := c, speed := v })
  | _ => .badLength

/-- SET_SPEED and SET_ACCEL. -/
def channelWordBody : List Byte → Sent ChannelWordArgs
  | [c, v1, v2, v3, v4] => .fields { channel := c, value := word v1 v2 v3 v4 }
  | _ => .badLength

/-- GOTO. -/
def gotoBody : List Byte → Sent GotoArgs
  | [c, p, n1, n2, n3, n4, hh, mm, ss, ff, ph] =>
    .ofOption ((optionalOf p (word n1 n2 n3 n4)).map fun n =>
      { channel := c, serial := n, timecode := timecodeOf? hh mm ss ff ph })
  | _ => .badLength

/-- LIVE. -/
def liveBody : List Byte → Sent LiveArgs
  | [c, p, d1, d2, d3, d4] =>
    .ofOption ((optionalOf p (word d1 d2 d3 d4)).map fun d => { channel := c, delay := d })
  | _ => .badLength

/-- SET_BLEND. -/
def setBlendBody : List Byte → Sent SetBlendArgs
  | [c, b] => .ofOption ((flagOf b).map fun v => { channel := c, blend := v })
  | _ => .badLength

/-- SET_END_ACTION. -/
def setEndActionBody : List Byte → Sent SetEndActionArgs
  | [c, b] => .ofOption ((endActionOf b).map fun v => { channel := c, action := v })
  | _ => .badLength

/-- SET_TARGET_BANK, ANGLE, QUEUE_REMOVE and QUERY_QUEUE. -/
def channelByteBody : List Byte → Sent ChannelByteArgs
  | [c, b] => .fields { channel := c, value := b }
  | _ => .badLength

/-- BIND. -/
def bindBody : List Byte → Sent BindArgs
  | [p, c] => .fields { panel := p, channel := c }
  | _ => .badLength

/-- SET_SILENCE. -/
def setSilenceBody : List Byte → Sent SetSilenceArgs
  | [p, t1, t2, t3, t4] => .fields { panel := p, ms := word t1 t2 t3 t4 }
  | _ => .badLength

/-- TRIM_CLIP. -/
def trimClipBody : List Byte → Sent TrimClipArgs
  | [i1, i2, g, a1, a2, a3, a4, b1, b2, b3, b4] =>
    .fields { clip := half i1 i2, angle := g, inSerial := word a1 a2 a3 a4, outSerial := word b1 b2 b3 b4 }
  | _ => .badLength

/-- RENAME: a length byte above 16 is outside its values; the characters after the length are not read. -/
def renameBody : List Byte → Sent RenameArgs
  | i1 :: i2 :: n :: chars =>
    if chars.length = 16 then
      (if n.toNat ≤ 16 then .fields { clip := half i1 i2, name := chars.take n.toNat } else .badByte)
    else .badLength
  | _ => .badLength

/-- RATE. -/
def rateBody : List Byte → Sent RateArgs
  | [i1, i2, r] => .fields { clip := half i1 i2, rating := r }
  | _ => .badLength

/-- SET_CLIP_PLAY. -/
def setClipPlayBody : List Byte → Sent SetClipPlayArgs
  | [i1, i2, m1, e, m2, s1, s2, s3, s4, m3, f1, f2, f3, f4, r1, r2, r3, r4, n] =>
    let bounce : BounceField := { forwardSpeed := word f1 f2 f3 f4, reverseSpeed := word r1 r2 r3 r4, passes := n }
    match partOf m1 (endActionOf e), partOf m2 (some (word s1 s2 s3 s4)), partOf m3 (some bounce) with
    | some a, some v, some b => .fields { clip := half i1 i2, endAction := a, speed := v, bounce := b }
    | _, _, _ => .badByte
  | _ => .badLength

/-- LIST_BANK. -/
def listBankBody : List Byte → Sent ListBankArgs
  | [b, n] => .fields { bank := b, start := n }
  | _ => .badLength

/-- QUEUE_ADD. -/
def queueAddBody : List Byte → Sent QueueAddArgs
  | [c, i1, i2, pa, a, pv, v1, v2, v3, v4, pp, n] =>
    match optionalOf pa a, optionalOf pv (word v1 v2 v3 v4), optionalOf pp n with
    | some g, some v, some q => .fields { channel := c, clip := half i1 i2, angle := g, speed := v, position := q }
    | _, _, _ => .badByte
  | _ => .badLength

/-- SET_ALARM. -/
def setAlarmBody : List Byte → Sent SetAlarmArgs
  | [m, h1, h2, h3, h4] => .fields { mask := m, hold := word h1 h2 h3 h4 }
  | _ => .badLength

/-! ## Bodies that carry a list (R193): the length is the fixed part plus the count times the item size -/

/-- SET_ANGLE_GROUP. -/
def angleGroupBody : List Byte → Sent AngleGroupArgs
  | c :: n :: items => if items.length = n.toNat then .fields { channel := c, trains := items } else .badLength
  | _ => .badLength

/-- Curve points of six bytes each. -/
def curveItems : List Byte → List CurvePointField
  | l1 :: l2 :: s1 :: s2 :: s3 :: s4 :: rest => { lever := half l1 l2, speed := word s1 s2 s3 s4 } :: curveItems rest
  | _ => []

/-- SET_CURVE. -/
def setCurveBody : List Byte → Sent SetCurveArgs
  | p :: n :: items =>
    if items.length = 6 * n.toNat then .fields { panel := p, points := curveItems items } else .badLength
  | _ => .badLength

/-- Class settings of three bytes each; `none` for a class or an enable outside its values. -/
def reportItems : List Byte → Option (List ReportSettingField)
  | c :: e :: p :: rest =>
    match reportClassOf c, flagOf e, reportItems rest with
    | some k, some on, some l => some ({ cls := k, enabled := on, priority := p } :: l)
    | _, _, _ => none
  | _ => some []

/-- SET_REPORTS. -/
def setReportsBody : List Byte → Sent (List ReportSettingField)
  | n :: items => if items.length = 3 * n.toNat then .ofOption (reportItems items) else .badLength
  | _ => .badLength

/-! ## Kinds (Table 11-2) -/

/-- QUERY_STATUS: the part byte names the row, SUMMARY 0, TRAINS 1, CHANNELS 2, PANELS 3; another part is refused
with BAD_VALUE (R184, log 9, log 10). The start byte of the parts that have no start is not read (log 37). -/
def queryStatusOf (tag : Byte) : List Byte → Instr
  | [part, start] =>
    match part.toNat with
    | 0 => .queryStatusSummary tag (.fields ())
    | 1 => .queryStatusTrains tag (.fields start)
    | 2 => .queryStatusChannels tag (.fields start)
    | 3 => .queryStatusPanels tag (.fields ())
    | _ => .queryStatusSummary tag .badByte
  | _ => .queryStatusSummary tag .badLength

/-- RESET: scope ALL 0, PLAYBACK 1; another value is refused with BAD_VALUE (R189, log 10). -/
def resetOf (tag : Byte) : List Byte → Instr
  | [scope] =>
    match scope.toNat with
    | 0 => .resetAll tag (.fields ())
    | 1 => .resetPlayback tag (.fields ())
    | _ => .resetAll tag .badByte
  | _ => .resetAll tag .badLength

/-- Kinds 0x10 to 0x15. -/
def trainCommand (kind tag : Byte) (body : List Byte) : Instr :=
  match kind.toNat with
  | 0x10 => .configureTrain tag (configureTrainBody body)
  | 0x11 => .releaseTrain tag (byteBody body)
  | 0x12 => .startTrain tag (byteBody body)
  | 0x13 => .stopTrain tag (byteBody body)
  | 0x14 => .timebase tag (timebaseBody body)
  | 0x15 => .queryAnchors tag (queryAnchorsBody body)
  | _ => .unknownKind kind tag

/-- Kinds 0x20 to 0x2C. -/
def transportCommand (kind tag : Byte) (body : List Byte) : Instr :=
  match kind.toNat with
  | 0x20 => .loadClip tag (loadClipBody body)
  | 0x21 => .selectTrain tag (channelTrainBody body)
  | 0x22 => .unload tag (byteBody body)
  | 0x23 => .play tag (playBody body)
  | 0x24 => .setSpeed tag (channelWordBody body)
  | 0x25 => .pause tag (byteBody body)
  | 0x26 => .goto tag (gotoBody body)
  | 0x27 => .live tag (liveBody body)
  | 0x28 => .setAccel tag (channelWordBody body)
  | 0x29 => .setBlend tag (setBlendBody body)
  | 0x2A => .setEndAction tag (setEndActionBody body)
  | 0x2B => .setTargetBank tag (channelByteBody body)
  | 0x2C => .setAngleGroup tag (angleGroupBody body)
  | _ => .unknownKind kind tag

/-- Kinds 0x30 to 0x43. -/
def operatorCommand (kind tag : Byte) (body : List Byte) : Instr :=
  match kind.toNat with
  | 0x30 => .angle tag (channelByteBody body)
  | 0x31 => .angleNext tag (byteBody body)
  | 0x32 => .gang tag (channelTrainBody body)
  | 0x33 => .ungang tag (byteBody body)
  | 0x38 => .bind tag (bindBody body)
  | 0x39 => .setCurve tag (setCurveBody body)
  | 0x3A => .queryCurve tag (byteBody body)
  | 0x3B => .setSilence tag (setSilenceBody body)
  | 0x40 => .markIn tag (byteBody body)
  | 0x41 => .markOut tag (byteBody body)
  | 0x42 => .clearMarks tag (byteBody body)
  | 0x43 => .take tag (byteBody body)
  | _ => .unknownKind kind tag

/-- Kinds 0x48 to 0x54. -/
def clipCommand (kind tag : Byte) (body : List Byte) : Instr :=
  match kind.toNat with
  | 0x48 => .lockClip tag (halfBody body)
  | 0x49 => .unlockClip tag (halfBody body)
  | 0x4A => .trimClip tag (trimClipBody body)
  | 0x4B => .deleteClip tag (halfBody body)
  | 0x4C => .clearBank tag (byteBody body)
  | 0x4D => .clearAll tag (emptyBody body)
  | 0x4E => .guardBank tag (byteBody body)
  | 0x4F => .unguardBank tag (byteBody body)
  | 0x50 => .rename tag (renameBody body)
  | 0x51 => .rate tag (rateBody body)
  | 0x52 => .setClipPlay tag (setClipPlayBody body)
  | 0x53 => .queryClip tag (halfBody body)
  | 0x54 => .listBank tag (listBankBody body)
  | _ => .unknownKind kind tag

/-- Kinds 0x58 to 0x65. -/
def unitCommand (kind tag : Byte) (body : List Byte) : Instr :=
  match kind.toNat with
  | 0x58 => .queueAdd tag (queueAddBody body)
  | 0x59 => .queueRemove tag (channelByteBody body)
  | 0x5A => .queueClear tag (byteBody body)
  | 0x5B => .queryQueue tag (channelByteBody body)
  | 0x5C => .queueStart tag (byteBody body)
  | 0x5D => .queueNext tag (byteBody body)
  | 0x5E => .readRunlog tag (byteBody body)
  | 0x5F => .flushRunlog tag (emptyBody body)
  | 0x60 => .setReports tag (setReportsBody body)
  | 0x61 => queryStatusOf tag body
  | 0x62 => .readFaults tag (emptyBody body)
  | 0x63 => .clearFaults tag (emptyBody body)
  | 0x64 => .setAlarm tag (setAlarmBody body)
  | 0x65 => resetOf tag body
  | _ => .unknownKind kind tag

/-- The command a record of the control link stands for: total on any record, the row UNKNOWN_KIND for a kind that is
not a command kind (R179, Table 11-2). -/
def decodeCommand (kind tag : Byte) (body : List Byte) : Instr :=
  if kind.toNat < 0x20 then trainCommand kind tag body
  else if kind.toNat < 0x30 then transportCommand kind tag body
  else if kind.toNat < 0x48 then operatorCommand kind tag body
  else if kind.toNat < 0x58 then clipCommand kind tag body
  else unitCommand kind tag body

/-- The command a word of the opcode table spells: none, since the table gives no row any bits (log 26). -/
def decodeTableWord (_nbits _w : Nat) : Option Instr := none

end Sys2Proof
end

