-- ==== Sys2Proof/Config.lean ====
section
/-! DEFINITION. What one 7240 fixes: the sizes of Table 0-1 and section 0.2, and the free values of the model.
A free value has no body: no proof can see what it is. -/

namespace Sys2Proof.Config

/-- The frame store has 4096 extents (section 0.2). -/
def extents : Nat := 4096

/-- Each extent has 64 pages (section 0.2). -/
def pagesPerExtent : Nat := 64

/-- The serial 4,294,967,295 is not granted (Table 0-3, R13). -/
def serialLimit : Nat := 4294967295

/-- Frame counts, serials and internal time are 32 bits wide (Table 0-3). -/
def wrap32 : Nat := 4294967296

/-- The first fill at which a train reserves its next extent (section 1.5). -/
def reservationFill : Nat := 48

/-- Speeds lie within ±38,400 su (Table 0-3). -/
def maxSpeed : Int := 38400

/-- One source frame is 1200 sfu (Table 0-3). -/
def sfu : Nat := 1200

/-- An anchor list holds up to 128 anchors (R35). -/
def maxAnchors : Nat := 128

/-- FREE VALUE (DESIGN CHOICE, log 17): the number of frames presented of a session after one more present
than R174's range can count; the spec gives the range 0 to 4,294,967,295 and no result beyond it. The argument
is the count of free values read before it. -/
opaque framesPastRange : Nat → Word

end Sys2Proof.Config
end

