-- ==== Sys2Proof/Machine/State.lean ====
section
/-! DEFINITION. The state of the 7240, as plain data: one structure per record the spec describes, and the state
after reset. INVENTORY.md lists every field with its rule. -/

namespace Sys2Proof.Machine

/-! ## Trains and the timecode map (spec 01, 02) -/

/-- Train states (R5). -/
inductive TrainState where
  | unconfigured | idle | recording | stalled
  deriving DecidableEq, Repr

/-- A pool: extents first to first + count − 1 (R1). -/
structure Pool where
  first : Nat
  count : Nat
  deriving DecidableEq, Repr

/-- A chain entry (R3). -/
structure ChainEntry where
  extent : Nat
  first : Nat
  fill : Nat
  deriving DecidableEq, Repr

/-- An in-flight frame: its page and serial, and the label and phase as received (R5, R14). -/
structure InFlight where
  page : Nat
  serial : Nat
  label : TimecodeField
  deriving DecidableEq, Repr

/-- A train record (R5, Table 1-2). The current extent is the last chain entry (section 1.2). -/
structure Train where
  state : TrainState
  multiple : Nat
  pool : Option Pool
  chain : List ChainEntry
  cursor : Option Nat
  reserved : Option Nat
  serialCounter : Nat
  inFlight : Option InFlight
  firstFrame : Bool
  deriving DecidableEq, Repr

/-- A frame's position in time (section 2.2). -/
structure Timecode where
  tcnum : Nat
  phase : Nat
  deriving DecidableEq, Repr

/-- An anchor (R35). -/
structure Anchor where
  serial : Nat
  tcnum : Nat
  phase : Nat
  deriving DecidableEq, Repr

/-- A train's anchor list, oldest first, and its last label (R35). -/
structure AnchorMap where
  anchors : List Anchor
  lastLabel : Option Timecode
  deriving DecidableEq, Repr

/-- The house timebase (R28, R29). -/
structure Timebase where
  rate : Nat
  drop : Bool
  deriving DecidableEq, Repr

/-- A label as the device forms it (R32). -/
structure Label where
  hh : Nat
  mm : Nat
  ss : Nat
  ff : Nat
  deriving DecidableEq, Repr

/-- A label with its phase, as a timecode field carries it. -/
structure LabelPhase where
  label : Label
  phase : Nat
  deriving DecidableEq, Repr

/-! ## Channels (spec 03, 04, 06, 08) -/

/-- Transport states (R69, Table 4-1). -/
inductive TransportState where
  | idle | cued | playing | shuttle | jog | live | following
  deriving DecidableEq, Repr

/-- A channel's source (R45). -/
inductive Source where
  | noSource
  | train (x : TrainId)
  | clip (id angle : Nat)
  deriving DecidableEq, Repr

/-- A source as a record carries it: for CLIP with the angle's train (Table 11-3). -/
structure SourceField where
  source : Source
  train : Option TrainId
  deriving DecidableEq, Repr

/-- A pending mark (R115). -/
structure Mark where
  train : TrainId
  serial : Nat
  tcnum : Nat
  phase : Nat
  deriving DecidableEq, Repr

/-- The direction of a bounce leg, and of travel (R87, R54). -/
inductive Direction where
  | forward | reverse
  deriving DecidableEq, Repr

/-- The bounce context (R87); `none` passes stand for endless. -/
structure Bounce where
  direction : Direction
  passes : Option Nat
  deriving DecidableEq, Repr

/-- The follow state of a follower (R155). -/
inductive FollowState where
  | tracking | holding
  deriving DecidableEq, Repr

/-- Gang roles (R155). -/
inductive GangRole where
  | noGang
  | leader
  | follower (follow : FollowState)
  deriving DecidableEq, Repr

/-- What a FRAME present shows (R63). -/
structure FrameShown where
  primary : Nat
  secondary : Option Nat
  weight : Nat
  train : TrainId
  serial : Nat
  timecode : Option LabelPhase
  deriving DecidableEq, Repr

/-- A present: FRAME when `frame` is held, BLACK when it is absent (R63, R64). -/
structure Present where
  channel : ChannelId
  n : Nat
  frame : Option FrameShown
  state : TransportState
  speed : Int
  deriving DecidableEq, Repr

/-- A channel record (R44, Table 3-1). -/
structure Channel where
  state : TransportState
  source : Source
  head : Nat
  speed : Int
  target : Int
  accel : Int
  blend : Bool
  endAction : EndAction
  liveDelay : Nat
  bounce : Option Bounce
  markIn : Option Mark
  markOut : Option Mark
  targetBank : Fin 16
  angleGroup : List TrainId
  role : GangRole
  jogAcc : Int
  edgeHold : Bool
  lastServed : Option Nat
  lastPresent : Option Present
  deriving DecidableEq, Repr

/-! ## Queue unit (spec 09) -/

/-- A play queue entry (R164). -/
structure QueueEntry where
  clip : Nat
  angle : Option Nat
  speed : Option Int
  deriving DecidableEq, Repr

/-- A session record (R174). -/
structure Session where
  clip : Nat
  train : TrainId
  firstCount : Option Nat
  lastCount : Option Nat
  presented : Nat
  deriving DecidableEq, Repr

/-- What the queue unit holds for one channel (R164, R174). -/
structure PlayQueue where
  entries : List QueueEntry
  playing : Bool
  session : Option Session
  deriving DecidableEq, Repr

/-- Run log outcomes (R73, R175). -/
inductive RunOutcome where
  | complete | cutShort | aborted | skippedDeleted | skippedLost
  deriving DecidableEq, Repr

/-- A run log entry (R175, Table 9-1). -/
structure RunEntry where
  channel : ChannelId
  clip : Nat
  train : TrainId
  outcome : RunOutcome
  firstCount : Option Nat
  lastCount : Option Nat
  presented : Nat
  deriving DecidableEq, Repr

/-- The run log, oldest entry first, and its overrun flag (R175). -/
structure RunLog where
  entries : List RunEntry
  overrun : Bool
  deriving DecidableEq, Repr

/-! ## Panels (spec 05) -/

/-- Arm states (R95). -/
inductive ArmState where
  | armed | disarmed | lost
  deriving DecidableEq, Repr

/-- A point (L, S) of an accepted shuttle curve (R99). -/
structure CurvePoint where
  lever : Nat
  speed : Nat
  deriving DecidableEq, Repr

/-- An echo (R112). -/
structure Echo where
  channel : ChannelId
  state : TransportState
  speed : Int
  timecode : Option LabelPhase
  clip : Option Nat
  arm : ArmState
  deriving DecidableEq, Repr

/-- A panel record (R95, Table 5-1), and the echo its lane is sending (R113, R192). -/
structure Panel where
  binding : Option ChannelId
  curve : List CurvePoint
  arm : ArmState
  silence : Nat
  lastRecord : Nat
  pendingEcho : Option Echo
  sending : Option Echo
  deriving DecidableEq, Repr

/-! ## Clip table (spec 07) -/

/-- Clip states (R132). -/
inductive ClipState where
  | valid | partialClip | lost
  deriving DecidableEq, Repr

/-- Clip locks (R130). -/
inductive ClipLock where
  | unlocked | held
  deriving DecidableEq, Repr

/-- An angle entry (R131). -/
structure Angle where
  train : TrainId
  inSerial : Nat
  outSerial : Nat
  present : Bool
  holed : Bool
  trimmed : Bool
  deriving DecidableEq, Repr

/-- Bounce settings (R130); 0 passes stand for endless (R147). -/
structure BounceSettings where
  forwardSpeed : Int
  reverseSpeed : Int
  passes : Nat
  deriving DecidableEq, Repr

/-- A clip record (R130, Table 7-1). -/
structure Clip where
  id : Nat
  state : ClipState
  lock : ClipLock
  primary : Nat
  angles : List Angle
  inTime : Timecode
  outTime : Timecode
  name : Option (List Byte)
  rating : Nat
  endAction : Option EndAction
  speed : Option Int
  bounce : Option BounceSettings
  deriving DecidableEq, Repr

/-! ## Reports, faults and the alarm line (spec 10) -/

/-- The cause a TRANSPORT/STATE_CHANGED report carries (R70). -/
inductive Cause where
  | command | key | lever | jog | deadMan | bound | endAction | queue | catchUp | angleLoss | trainDiscard | gang
  deriving DecidableEq, Repr

/-- Status codes (Table 10-1), in the order of Table 11-5. -/
inductive Status where
  | ok | unknownKind | badLength | badValue | busy | overlap | locked | guarded | inUse | ganged | noSource
  | notFound | untimed | noMark | badRange | badCurve | tableFull | bankFull | queueFull | overload
  deriving DecidableEq, Repr

/-- Fault kinds (R185), in the order of Table 11-4. -/
inductive FaultKind where
  | trainStalled | ingestSequence | playoutGap | panelLost | controlOverload | serialLimit
  deriving DecidableEq, Repr

/-- Why a follower holds (R159). -/
inductive HoldReason where
  | leaderIdle | untimed | notFound
  deriving DecidableEq, Repr

/-- How an angle was changed, as CLIP/TRIMMED marks it: a case of Table 7-2 (R135) or discarded (R136). -/
inductive TrimCase where
  | case1 | case2 | case3 | case4 | discarded
  deriving DecidableEq, Repr

/-- The range a CLIP report gives: serials a to b (R135), or the whole of the train (R136). -/
inductive TrimRange where
  | serials (a b : Nat)
  | wholeTrain
  deriving DecidableEq, Repr

/-- A report's kind and the fields its raising rule lists (R182, Table 10-2). -/
inductive ReportBody where
  | stateChanged (c : ChannelId) (before after : TransportState) (source : SourceField) (serial : Nat) (cause : Cause)
  | keyRefused (p : PanelId) (c : ChannelId) (code : Byte) (status : Status)
  | edgeHold (c : ChannelId) (atHi : Bool) (serial : Nat)
  | pushed (c : ChannelId) (x : TrainId) (fromSerial toSerial : Nat)
  | holeSkipped (c : ChannelId) (x : TrainId) (fromSerial toSerial : Nat)
  | caughtUp (c : ChannelId) (x : TrainId) (recordEdge : Nat)
  | followLost (follower leader : ChannelId) (x : TrainId) (serial : Nat) (reason : HoldReason)
  | committed (c : ChannelId) (clip angles : Nat) (primaryTrain : TrainId) (state : ClipState)
  | trimmed (clip : Nat) (x : TrainId) (range : TrimRange) (state : ClipState) (changes : List (Nat × TrimCase))
  | lost (clip : Nat) (x : TrainId) (range : TrimRange) (state : ClipState)
  | deleted (clip bank : Nat) (state : ClipState) (queueEntries : Nat)
  | bankCleared (bank removed kept : Nat)
  | stalled (x : TrainId)
  | resumed (x : TrainId) (extent : Nat)
  | discontinuity (x : TrainId) (serial : Nat) (label expected : LabelPhase) (replaced : Bool)
  | mapFull (x : TrainId) (removed oldest : Nat)
  | serialLimit (x : TrainId)
  | appended (c : ChannelId) (clip : Nat) (outcome : RunOutcome) (size : Nat)
  | recorded (kind : FaultKind) (object : Option Nat) (time count : Nat)
  deriving DecidableEq, Repr

/-- A report in the queue: its body, the time it was raised and the priority it was queued with (R182). -/
structure Report where
  body : ReportBody
  time : Nat
  priority : Nat
  deriving DecidableEq, Repr

/-- The enable and priority of a report class (R182). -/
structure ClassSetting where
  enabled : Bool
  priority : Nat
  deriving DecidableEq, Repr

/-- The report side of the report and fault unit: class settings, report queue in queued order, lost flags
(R182, R183), each indexed by class in the order of Table 11-4. -/
structure ReportUnit where
  settings : Vector ClassSetting 6
  queue : List Report
  lost : Vector Bool 6
  deriving DecidableEq, Repr

/-- A fault as the fault record holds it (R185). -/
structure FaultEntry where
  kind : FaultKind
  object : Option Nat
  time : Nat
  deriving DecidableEq, Repr

/-- The fault record (R185). -/
structure FaultRecord where
  first : Option FaultEntry
  latest : Option FaultEntry
  count : Nat
  deriving DecidableEq, Repr

/-- The states of the alarm line (R187). -/
inductive AlarmLine where
  | deasserted | asserted | clearing
  deriving DecidableEq, Repr

/-- A running hold: when it was last started or restarted, and its hold end (R187, R188). -/
structure Hold where
  start : Nat
  finish : Nat
  deriving DecidableEq, Repr

/-- The alarm: mask (one bit per fault kind), alarm hold in ms, line and running hold (R187, R188). -/
structure Alarm where
  mask : Byte
  holdTime : Nat
  line : AlarmLine
  hold : Option Hold
  deriving DecidableEq, Repr

/-! ## Replies (spec 10) -/

/-- The transport summary of R71. -/
structure TransportSummary where
  state : TransportState
  source : SourceField
  head : Option (Nat × Nat)
  speed : Int
  target : Int
  deriving DecidableEq, Repr

/-- An angle in a TAKE reply (R128). -/
structure TakenAngle where
  train : TrainId
  inSerial : Nat
  outSerial : Nat
  holed : Bool
  deriving DecidableEq, Repr

/-- An angle in a QUERY_CLIP reply, with its looked-up timecodes (R148). -/
structure AngleView where
  angle : Angle
  inTime : Option LabelPhase
  outTime : Option LabelPhase
  deriving DecidableEq, Repr

/-- A clip in a LIST_BANK reply (R149). -/
structure ClipView where
  id : Nat
  state : ClipState
  lock : ClipLock
  rating : Nat
  inUse : Bool
  deriving DecidableEq, Repr

/-- A train summary (R27). -/
structure TrainSummary where
  state : TrainState
  multiple : Nat
  pool : Option Pool
  entries : Nat
  current : Option (Nat × Nat)
  reserved : Option Nat
  oldestEdge : Option Nat
  recordEdge : Option Nat
  serialCounter : Nat
  holes : Nat
  deriving DecidableEq, Repr

/-- The kind, primary serial and W of a last present (R68); the serial is absent in BLACK. -/
structure PresentSummary where
  black : Bool
  serial : Option Nat
  weight : Nat
  deriving DecidableEq, Repr

/-- A channel summary (R68). -/
structure ChannelSummary where
  state : TransportState
  source : SourceField
  head : Option (Nat × Nat)
  speed : Int
  target : Int
  accel : Int
  blend : Bool
  endAction : EndAction
  liveDelay : Nat
  role : GangRole
  markIn : Bool
  markOut : Bool
  lastServed : Option Nat
  lastPresent : Option PresentSummary
  deriving DecidableEq, Repr

/-- A panel summary (R114). -/
structure PanelSummary where
  binding : Option ChannelId
  arm : ArmState
  silence : Nat
  silentFor : Nat
  points : Nat
  echoPending : Bool
  deriving DecidableEq, Repr

/-- The body of a reply with status OK: the fields its command's rule lists, in that order; `empty` where the
rule lists none, and in every reply with another status (R180). -/
inductive ReplyBody where
  | empty
  | transport (t : TransportSummary)
  | anchors (timebase : Timebase) (day multiple count : Nat) (last : Option LabelPhase)
      (list : List (Nat × LabelPhase))
  | angle (t : TransportSummary) (index : Nat) (train : TrainId)
  | angleNext (t : TransportSummary) (index : Nat) (train : TrainId) (passedOver : Nat)
  | trainNext (t : TransportSummary) (train : TrainId) (passedOver : Nat)
  | gang (t : TransportSummary) (follow : FollowState)
  | bind (previous : Option ChannelId) (displaced : Option PanelId)
  | curve (points : List CurvePoint)
  | mark (train : TrainId) (serial : Nat) (time : LabelPhase) (otherHeld : Bool)
  | marksCleared (inHeld outHeld : Bool)
  | take (clip primary : Nat) (angles : List TakenAngle)
  | lockCounts (changed : Nat)
  | trim (inSerial outSerial : Nat) (holed : Bool) (state : ClipState) (net : Int)
  | deleted (queueEntries : Nat)
  | bankCleared (removed kept queueEntries : Nat)
  | allCleared (removed kept passedOver queueEntries : Nat)
  | guard (before : Bool)
  | clipPlay (endAction : Option EndAction) (speed : Option Int) (bounce : Option BounceSettings)
  | clip (c : Clip) (inTime outTime : LabelPhase) (inUseBy : List ChannelId) (angles : List AngleView)
  | bank (guarded : Bool) (count : Nat) (clips : List ClipView)
  | queueAdded (index count : Nat)
  | queueRemoved (count : Nat) (t : Option TransportSummary)
  | queueCleared (removed : Nat)
  | queue (playing : Bool) (count : Nat) (entries : List QueueEntry) (session : Option Session)
  | queueLoaded (skipped : Nat) (loaded : Option (Nat × Nat)) (t : TransportSummary)
  | runLog (entries : List RunEntry) (left : Nat) (overrun : Bool)
  | flushed (removed : Nat)
  | reportSettings (settings : Vector ClassSetting 6)
  | summary (lost : Vector Bool 6) (logSize : Nat) (overrun : Bool) (reportsQueued : Nat) (faultCount : Nat)
      (latest : Option FaultKind) (asserted clearPending : Bool) (trains : List TrainState)
      (channels : List (TransportState × GangRole)) (panels : List (Option ChannelId × ArmState))
  | trains (list : List TrainSummary)
  | channels (list : List ChannelSummary)
  | panels (list : List PanelSummary)
  | faults (record : FaultRecord) (mask : Byte) (holdTime : Nat) (asserted clearPending : Bool)
      (remaining : Option Nat)
  | faultsCleared (count : Nat)
  | alarm (mask : Byte) (holdTime : Nat)
  deriving DecidableEq, Repr

/-- A reply: the command's kind and tag, a status, and the body (R180). -/
structure Reply where
  kind : Byte
  tag : Byte
  status : Status
  body : ReplyBody
  deriving DecidableEq, Repr

/-- A reply waiting for the lane. An OVERLOAD reply holds no place in the command buffer (R178). -/
structure WaitingReply where
  reply : Reply
  overload : Bool
  deriving DecidableEq, Repr

/-- What the control link's outgoing lane sends (R181). -/
inductive ControlRecord where
  | reply (r : Reply)
  | report (r : Report)
  deriving DecidableEq, Repr

/-- The command port: the buffered commands not yet carried out in arrival order, the replies waiting for the
lane, and the record the lane is sending (R178 to R181, logs 24 and 25). -/
structure CommandPort where
  waiting : List Instr
  replies : List WaitingReply
  sending : Option ControlRecord
  deriving DecidableEq, Repr

/-! ## Links (spec 11) -/

/-- DROP reasons (R12). -/
inductive DropReason where
  | notRecording | stalled | serialLimit
  deriving DecidableEq, Repr

/-- What an ingest answer says (R12); the train is the train field of the record it answers. -/
inductive IngestAnswer where
  | grant (train : Byte) (page serial : Nat)
  | drop (train : Byte) (reason : DropReason)
  | ack (train : Byte) (page : Word)
  | stale (train : Byte) (page : Word)
  deriving DecidableEq, Repr

/-- An outgoing lane with the answers formed and not yet begun, each with the tag of the record it answers, and
the one being sent (R192, R193, log 25). -/
structure Lane (α : Type) where
  waiting : List (Byte × α)
  sending : Option (Byte × α)
  deriving DecidableEq, Repr

/-- Receiver states (R191). -/
inductive ReceiverState where
  | hunt | header | collect
  deriving DecidableEq, Repr

/-- A receiver: its state, the bytes held from the noted start character on, and the time of its last byte (the
model's own field, log 6). -/
structure Receiver where
  state : ReceiverState
  held : List Byte
  lastByte : Nat
  deriving DecidableEq, Repr

/-! ## The machine -/

/-- The whole state of the device, with the queue of commands that are waiting (`pending`). -/
structure State where
  pending : List Instr
  resetAsserted : Bool
  time : Nat
  timebase : Timebase
  trains : Vector Train 16
  maps : Vector AnchorMap 16
  locks : List (Nat × Nat)
  channels : Vector Channel 6
  queues : Vector PlayQueue 6
  runLog : RunLog
  panels : Vector Panel 4
  clips : List Clip
  guards : Vector Bool 16
  port : CommandPort
  reports : ReportUnit
  faults : FaultRecord
  alarm : Alarm
  ingest : Lane IngestAnswer
  playout : Lane Present
  receivers : Vector Receiver 7
  freeReads : Nat
  deriving DecidableEq, Repr

/-- The faults that stop the machine: there are none. A fault of the 7240 is an entry of its fault record (R185),
which is an effect on State. -/
inductive Fault where
  deriving DecidableEq, Repr

/-- The refusals. -/
inductive Refusal where
  /-- Raised by `exec` alone, for a command that has no meaning yet; safe, since nothing is claimed of it. -/
  | notModelled (mnemonic : String)
  deriving DecidableEq, Repr

/-! ## Values after reset -/

/-- A train record after power-on reset (Table 1-2). -/
def Train.initial : Train :=
  { state := .unconfigured, multiple := 1, pool := none, chain := [], cursor := none, reserved := none,
    serialCounter := 0, inFlight := none, firstFrame := false }

/-- An empty anchor list with no last label (R35). -/
def AnchorMap.initial : AnchorMap := { anchors := [], lastLabel := none }

/-- 50 frames per second, non-drop (R29). -/
def Timebase.initial : Timebase := { rate := 50, drop := false }

/-- A channel record after every reset (Table 3-1); the target bank is the channel index. -/
def Channel.initial (c : ChannelId) : Channel :=
  { state := .idle, source := .noSource, head := 0, speed := 0, target := 0, accel := 120, blend := true,
    endAction := .stop, liveDelay := 0, bounce := none, markIn := none, markOut := none,
    targetBank := ⟨c.val, by omega⟩, angleGroup := [], role := .noGang, jogAcc := 0, edgeHold := false,
    lastServed := none, lastPresent := none }

/-- An empty play queue, flag clear, no session (R164, R175). -/
def PlayQueue.initial : PlayQueue := { entries := [], playing := false, session := none }

/-- The default shuttle curve (Table 5-3). -/
def defaultCurve : List CurvePoint :=
  [⟨0, 0⟩, ⟨40, 0⟩, ⟨400, 600⟩, ⟨700, 1200⟩, ⟨900, 4800⟩, ⟨1000, 12000⟩]

/-- A panel record after power-on reset or RESET ALL taken at internal time `now` (Table 5-1), its lane idle. -/
def Panel.initial (now : Nat) : Panel :=
  { binding := none, curve := defaultCurve, arm := .disarmed, silence := 250, lastRecord := now,
    pendingEcho := none, sending := none }

/-- The report unit after power-on reset (Table 10-4). -/
def ReportUnit.initial : ReportUnit :=
  { settings := #v[⟨true, 1⟩, ⟨true, 2⟩, ⟨true, 1⟩, ⟨true, 2⟩, ⟨true, 0⟩, ⟨true, 3⟩], queue := [],
    lost := Vector.replicate 6 false }

/-- An empty fault record (Table 10-4). -/
def FaultRecord.initial : FaultRecord := { first := none, latest := none, count := 0 }

/-- The alarm after power-on reset: all six kinds, 500 ms, DEASSERTED, no hold running (Table 10-4). -/
def Alarm.initial : Alarm := { mask := 0x3F, holdTime := 500, line := .deasserted, hold := none }

/-- A receiver in HUNT with nothing held (R191). -/
def Receiver.initial : Receiver := { state := .hunt, held := [], lastByte := 0 }

/-- An idle command port (Table 10-4). -/
def CommandPort.initial : CommandPort := { waiting := [], replies := [], sending := none }

/-- The machine right after power-on reset, the reset input released (R194): every field at the value its rule
gives, and no command waiting. -/
def State.reset : State :=
  { pending := [], resetAsserted := false, time := 0, timebase := .initial,
    trains := Vector.replicate 16 .initial, maps := Vector.replicate 16 .initial, locks := [],
    channels := #v[.initial 0, .initial 1, .initial 2, .initial 3, .initial 4, .initial 5],
    queues := Vector.replicate 6 .initial, runLog := { entries := [], overrun := false },
    panels := Vector.replicate 4 (.initial 0), clips := [], guards := Vector.replicate 16 false,
    port := .initial, reports := .initial, faults := .initial, alarm := .initial,
    ingest := { waiting := [], sending := none }, playout := { waiting := [], sending := none },
    receivers := Vector.replicate 7 .initial, freeReads := 0 }

end Sys2Proof.Machine
end

