-- ==== Sys2Proof/Machine/Chain.lean ====
section
/-! DEFINITION. What the other blocks read from a train's pool and chain (spec 01, R2 to R4): retained frames and
their pages, edges, holes and roles. -/

namespace Sys2Proof.Machine

/-- The entry holds serial s: first ≤ s ≤ first + fill − 1 (R4). -/
def ChainEntry.holds (e : ChainEntry) (s : Nat) : Bool :=
  decide (e.first ≤ s ∧ s < e.first + e.fill)

/-- The entry holds a frame. -/
def ChainEntry.nonEmpty (e : ChainEntry) : Bool := decide (0 < e.fill)

/-- The last serial of an entry that holds a frame. -/
def ChainEntry.last (e : ChainEntry) : Nat := e.first + e.fill - 1

/-- The entry's serial range shares a serial with a to b (section 7.4). -/
def ChainEntry.touches (e : ChainEntry) (a b : Nat) : Bool :=
  decide (0 < e.fill ∧ e.first ≤ b ∧ a < e.first + e.fill ∧ a ≤ b)

/-- The chain entry that holds serial s. -/
def Train.entryOf (t : Train) (s : Nat) : Option ChainEntry := t.chain.find? (·.holds s)

/-- Serial s is a retained frame (R4). -/
def Train.retained (t : Train) (s : Nat) : Bool := t.chain.any (·.holds s)

/-- The page of a retained frame: extent × 64 + (s − first) (R4). -/
def Train.pageOf (t : Train) (s : Nat) : Option Nat :=
  (t.entryOf s).map fun e => e.extent * Config.pagesPerExtent + (s - e.first)

/-- The oldest edge: the first serial of the first entry that holds a frame (R4). -/
def Train.oldestEdge (t : Train) : Option Nat := (t.chain.find? (·.nonEmpty)).map (·.first)

/-- The record edge: the newest published serial (R4). -/
def Train.recordEdge (t : Train) : Option Nat := (t.chain.reverse.find? (·.nonEmpty)).map (·.last)

/-- The train holds at least one retained frame. -/
def Train.hasFrame (t : Train) : Bool := t.chain.any (·.nonEmpty)

/-- The current extent: the last chain entry (section 1.2). -/
def Train.current (t : Train) : Option ChainEntry := t.chain.getLast?

/-- Some retained frame lies from a to b. -/
def Train.anyRetained (t : Train) (a b : Nat) : Bool := t.chain.any (·.touches a b)

/-- Every serial from a to b is retained; the first argument is fuel, and one step per chain entry is enough
because a step passes the end of the entry it uses. -/
def coveredFrom (chain : List ChainEntry) : Nat → Nat → Nat → Bool
  | 0, a, b => decide (b < a)
  | k + 1, a, b =>
    if b < a then true
    else match chain.find? (·.holds a) with
      | none => false
      | some e => coveredFrom chain k (e.first + e.fill) b

/-- Some serial from a to b is not a retained frame (the holed flag of R131). -/
def Train.holed (t : Train) (a b : Nat) : Bool := !coveredFrom t.chain t.chain.length a b

/-- The least retained serial above b (Table 7-2, case 2). -/
def Train.leastAbove (t : Train) (b : Nat) : Option Nat :=
  (t.chain.find? fun e => e.nonEmpty && decide (b < e.last)).map fun e => max e.first (b + 1)

/-- The greatest retained serial below a (Table 7-2, case 3). -/
def Train.greatestBelow (t : Train) (a : Nat) : Option Nat :=
  (t.chain.reverse.find? fun e => e.nonEmpty && decide (e.first < a)).map fun e => min e.last (a - 1)

/-- The number of holes: ranges between the last frame of one entry and the first serial of the next (R4). -/
def holesIn : List ChainEntry → Nat
  | a :: b :: rest => (if a.first + a.fill < b.first then 1 else 0) + holesIn (b :: rest)
  | _ => 0

/-- The roles of an extent within its train's pool (R2). -/
inductive ExtentRole where
  | free | reserved | current | retained
  deriving DecidableEq, Repr

/-- The extent lies in the pool (R1). -/
def Pool.contains (p : Pool) (e : Nat) : Bool := decide (p.first ≤ e ∧ e < p.first + p.count)

/-- Two pools share an extent (R7). -/
def Pool.overlaps (p q : Pool) : Bool :=
  decide (p.first < q.first + q.count ∧ q.first < p.first + p.count)

/-- The role of an extent: exactly one of four within the pool, none outside it (R2, log 23). -/
def Train.role (t : Train) (e : Nat) : Option ExtentRole :=
  match t.pool with
  | none => none
  | some p =>
    if p.contains e then
      if t.reserved = some e then some .reserved
      else if t.current.map (·.extent) = some e then some .current
      else if t.chain.any (fun c => c.extent == e) then some .retained
      else some .free
    else none

/-- The train's summary for QUERY_STATUS (R27). -/
def Train.summary (t : Train) : TrainSummary :=
  { state := t.state, multiple := t.multiple, pool := t.pool, entries := t.chain.length,
    current := t.current.map fun e => (e.extent, e.fill), reserved := t.reserved,
    oldestEdge := t.oldestEdge, recordEdge := t.recordEdge, serialCounter := t.serialCounter,
    holes := holesIn t.chain }

end Sys2Proof.Machine
end

