-- ==== Sys2Proof/Machine/Timecode.lean ====
section
/-! DEFINITION. The house timebase and the timecode map (spec 02, R28 to R42): frames per day, labels and timecode
numbers, replacement of invalid labels, anchors, and the lookups between serial and timecode. -/

namespace Sys2Proof.Machine

/-! ## Labels and timecode numbers -/

/-- d, the number of labels skipped at each dropped minute (R29). -/
def Timebase.dropSkip (tb : Timebase) : Nat :=
  if tb.drop then (if tb.rate = 60 then 4 else 2) else 0

/-- D, the number of timecode frames in one day (Table 2-1). -/
def Timebase.day (tb : Timebase) : Nat := 86400 * tb.rate - tb.dropSkip * 1296

/-- A rate and counting mode TIMEBASE accepts (R28). -/
def Timebase.valid (tb : Timebase) : Bool :=
  decide (tb.rate ∈ [24, 25, 30, 48, 50, 60]) && (!tb.drop || decide (tb.rate = 30 ∨ tb.rate = 60))

/-- A dropped label (R30). -/
def Timebase.dropped (tb : Timebase) (l : Label) : Bool :=
  tb.drop && decide (l.ss = 0 ∧ l.ff < tb.dropSkip ∧ l.mm % 10 ≠ 0)

/-- A valid label (R30). -/
def Timebase.labelValid (tb : Timebase) (l : Label) : Bool :=
  decide (l.hh ≤ 23 ∧ l.mm ≤ 59 ∧ l.ss ≤ 59 ∧ l.ff < tb.rate) && !tb.dropped l

/-- The timecode number of a label (R31). -/
def Timebase.number (tb : Timebase) (l : Label) : Nat :=
  (3600 * l.hh + 60 * l.mm + l.ss) * tb.rate + l.ff
    - tb.dropSkip * ((60 * l.hh + l.mm) - (60 * l.hh + l.mm) / 10)

/-- A number split as under non-drop counting (R32). -/
def splitNumber (rate n : Nat) : Label :=
  { hh := n / (3600 * rate), mm := n / (60 * rate) % 60, ss := n / rate % 60, ff := n % rate }

/-- The label of a timecode number (R32). -/
def Timebase.label (tb : Timebase) (n : Nat) : Label :=
  if tb.drop then
    let d := tb.dropSkip
    let q := 600 * tb.rate - 9 * d
    let tens := n / q
    let r := n % q
    let extra := if r < 60 * tb.rate then 0 else d * ((r - 60 * tb.rate) / (60 * tb.rate - d) + 1)
    splitNumber tb.rate (n + 9 * d * tens + extra)
  else splitNumber tb.rate n

/-- The timecode field the device sends for a position in time (R32). -/
def Timebase.field (tb : Timebase) (tc : Timecode) : LabelPhase :=
  { label := tb.label tc.tcnum, phase := tc.phase }

/-- The same for a number that may lie at or above D: it is first reduced mod D (R28). -/
def Timebase.fieldReduced (tb : Timebase) (tc : Timecode) : LabelPhase :=
  { label := tb.label (tc.tcnum % tb.day), phase := tc.phase }

/-- The label of a timecode field as received. -/
def labelOf (f : TimecodeField) : Label :=
  { hh := f.hh.toNat, mm := f.mm.toNat, ss := f.ss.toNat, ff := f.ff.toNat }

/-- The instant of a frame in tcu: tcnum × 24 + phase × 24 / M (R39, R115). -/
def instant (multiple : Nat) (tcnum phase : Nat) : Nat := tcnum * 24 + phase * 24 / multiple

/-! ## Replacement of labels that arrive on the ingest link (R34) -/

/-- mm 0, ss 0, ff 0 of the next hour; past hour 23 it is 00:00:00:00. -/
def nextHour (l : Label) : Label := { hh := if l.hh = 23 then 0 else l.hh + 1, mm := 0, ss := 0, ff := 0 }

/-- ss 0, ff 0 of the next minute, carrying into hh as needed. -/
def nextMinute (l : Label) : Label :=
  if l.mm = 59 then nextHour l else { l with mm := l.mm + 1, ss := 0, ff := 0 }

/-- ff 0 of the next second, carrying into mm and hh as needed. -/
def nextSecond (l : Label) : Label :=
  if l.ss = 59 then nextMinute l else { l with ss := l.ss + 1, ff := 0 }

/-- The label rows of R34's table, from the top down, each applied to the result of the one before. -/
def Timebase.repair (tb : Timebase) (l : Label) : Label :=
  let l := if tb.rate ≤ l.ff then nextSecond l else l
  let l := if 60 ≤ l.ss then nextMinute l else l
  let l := if 60 ≤ l.mm then nextHour l else l
  let l := if 24 ≤ l.hh then { hh := 0, mm := 0, ss := 0, ff := 0 } else l
  if tb.dropped l then { l with ff := tb.dropSkip } else l

/-- The frame's position after any replacement, and whether anything was replaced (R34, step 1 of R36). The last
row of the table moves a phase of M or more to phase 0 of the next timecode frame. -/
def Timebase.receive (tb : Timebase) (multiple : Nat) (f : TimecodeField) : Timecode × Bool :=
  let l := labelOf f
  let n := tb.number (tb.repair l)
  let p := f.phase.toNat
  (if p < multiple then { tcnum := n, phase := p } else { tcnum := (n + 1) % tb.day, phase := 0 },
   !(tb.labelValid l && decide (p < multiple)))

/-- The last label advanced by one phase (step 2 of R36). -/
def Timebase.advance (tb : Timebase) (multiple : Nat) (tc : Timecode) : Timecode :=
  if tc.phase + 1 < multiple then { tc with phase := tc.phase + 1 }
  else { tcnum := (tc.tcnum + 1) % tb.day, phase := 0 }

/-! ## Anchor ranges -/

/-- Each anchor with the end of its range, exclusive: the next anchor's serial, and for the newest `newest`. -/
def withLimits (newest : Nat) : List Anchor → List (Anchor × Nat)
  | [] => []
  | [a] => [(a, newest)]
  | a :: b :: rest => (a, b.serial) :: withLimits newest (b :: rest)

/-- The range of the newest anchor runs to the record edge (R35). -/
def Train.newestLimit (t : Train) : Nat :=
  match t.recordEdge with
  | some e => e + 1
  | none => 0

/-- Anchors whose range holds no retained frame are removed, all judged before any is removed (R38). -/
def AnchorMap.dropUnheld (m : AnchorMap) (t : Train) : AnchorMap :=
  { m with anchors := ((withLimits t.newestLimit m.anchors).filter fun (a, limit) =>
      decide (a.serial < limit) && t.anyRetained a.serial (limit - 1)).map (·.1) }

/-! ## Lookups -/

/-- What a lookup gives (R39 to R41). -/
inductive Lookup (α : Type) where
  | found (a : α)
  | untimed
  | notFound
  deriving DecidableEq, Repr

/-- Serial to timecode (R39). -/
def timecodeOf (tb : Timebase) (t : Train) (m : AnchorMap) (s : Nat) : Lookup Timecode :=
  if t.retained s then
    match m.anchors.reverse.find? fun a => decide (a.serial ≤ s) with
    | none => .untimed
    | some a =>
      let k := a.phase + (s - a.serial)
      .found { tcnum := (a.tcnum + k / t.multiple) % tb.day, phase := k % t.multiple }
  else .notFound

/-- One anchor against a timecode: k, and the serial it names when it matches (R40). -/
def anchorMatch (tb : Timebase) (t : Train) (tc p : Nat) (al : Anchor × Nat) : Option Nat :=
  let k : Int := ((tc : Int) - al.1.tcnum) % tb.day * t.multiple + p - al.1.phase
  if 0 ≤ k ∧ al.1.serial + k.toNat < al.2 ∧ t.retained (al.1.serial + k.toNat) then
    some (al.1.serial + k.toNat)
  else none

/-- Timecode to serial, from the newest anchor to the oldest (R40); `none` is NOT_FOUND. -/
def serialOf (tb : Timebase) (t : Train) (m : AnchorMap) (tc p : Nat) : Option Nat :=
  (withLimits t.newestLimit m.anchors).reverse.findSome? (anchorMatch tb t tc p)

/-- A head position on train A mapped onto another train B (R41, steps 1 to 5). -/
def mapAcross (tb : Timebase) (ta : Train) (ma : AnchorMap) (tB : Train) (mB : AnchorMap) (h : Nat) : Lookup Nat :=
  match timecodeOf tb ta ma (h / Config.sfu) with
  | .untimed => .untimed
  | .notFound => .notFound
  | .found tc =>
    let u := (tc.phase * Config.sfu + h % Config.sfu) * tB.multiple / ta.multiple
    match serialOf tb tB mB tc.tcnum (u / Config.sfu) with
    | some s => .found (s * Config.sfu + u % Config.sfu)
    | none => .notFound

end Sys2Proof.Machine
end

