-- ==== Sys2Proof/Machine/Operands.lean ====
section
/-! DEFINITION. Reading the fields of records: which values name a channel, train, panel, bank, clip or angle, how
signed fields and speeds are taken, and when a shuttle curve is accepted (spec 11 Table 11-3; R71, R99, R133). -/

namespace Sys2Proof.Machine

/-- A channel field names one of A to F as 0 to 5 (Table 11-3). -/
def channelOf (b : Byte) : Option ChannelId := if h : b.toNat < 6 then some ⟨b.toNat, h⟩ else none

/-- A train number from 0 to 15. -/
def trainOf (b : Byte) : Option TrainId := if h : b.toNat < 16 then some ⟨b.toNat, h⟩ else none

/-- A panel number from 0 to 3. -/
def panelOf (b : Byte) : Option PanelId := if h : b.toNat < 4 then some ⟨b.toNat, h⟩ else none

/-- A bank number from 0 to 15. -/
def bankOf (b : Byte) : Option (Fin 16) := if h : b.toNat < 16 then some ⟨b.toNat, h⟩ else none

/-- A clip id from 0 to 1023. -/
def clipIdOf (w : Half) : Option Nat := if w.toNat < 1024 then some w.toNat else none

/-- An angle index from 0 to 7. -/
def angleIndexOf (b : Byte) : Option Nat := if b.toNat < 8 then some b.toNat else none

/-- An optional angle index: `none` when a byte is given and lies outside 0 to 7. -/
def optAngleIndexOf : Option Byte → Option (Option Nat)
  | none => some none
  | some b => (angleIndexOf b).map some

/-- The channel field of BIND: A to F, or none as 0xFF (R97). -/
def bindChannelOf (b : Byte) : Option (Option ChannelId) :=
  if b = 0xFF then some none else (channelOf b).map some

/-- A speed beyond ±38,400 su is clamped to ±38,400 su (R76). -/
def clampSpeed (v : Int) : Int := max (-Config.maxSpeed) (min v Config.maxSpeed)

/-- The speed a four-byte signed field carries, clamped (R76, R77, R147, R165). -/
def speedOf (w : Word) : Int := clampSpeed w.toInt

/-- A WHEEL position beyond ±1000 is taken as ±1000 (R101). -/
def leverOf (l : Half) : Int := max (-1000) (min l.toInt 1000)

/-- The capture multiples (R7). -/
def multipleValid (m : Nat) : Bool := decide (m ∈ [1, 2, 3, 4, 6, 8])

/-- L strictly increases and S does not decrease from each point to the next (R99). -/
def curveRises : List (Int × Int) → Bool
  | (l, v) :: (l', v') :: rest => decide (l < l' ∧ v ≤ v') && curveRises ((l', v') :: rest)
  | _ => true

/-- The curve rules of R99. -/
def curveValid (ps : List (Int × Int)) : Bool :=
  decide (2 ≤ ps.length ∧ ps.length ≤ 16 ∧ ps.head? = some (0, 0) ∧ ps.getLast?.map (·.1) = some 1000)
    && curveRises ps && ps.all fun p => decide (0 ≤ p.2 ∧ p.2 ≤ Config.maxSpeed)

/-- The points of SET_CURVE as signed numbers. -/
def curvePoints (ps : List CurvePointField) : List (Int × Int) := ps.map fun p => (p.lever.toInt, p.speed.toInt)

/-- S(L) for L of 0 or more: the segment whose end points satisfy Li ≤ L ≤ Li+1 (R100). -/
def curveAt : List CurvePoint → Nat → Nat
  | a :: b :: rest, l =>
    if a.lever ≤ l ∧ l ≤ b.lever then
      a.speed + (b.speed - a.speed) * (l - a.lever) / (b.lever - a.lever)
    else curveAt (b :: rest) l
  | _, _ => 0

/-- S(L) of a panel's curve (R100). -/
def leverSpeed (curve : List CurvePoint) (l : Int) : Int :=
  if 0 ≤ l then (curveAt curve l.toNat : Nat) else -(curveAt curve (-l).toNat : Nat)

/-- Printable characters: codes 32 to 126 (R146). -/
def printable (b : Byte) : Bool := decide (32 ≤ b.toNat ∧ b.toNat ≤ 126)

/-- An alarm mask names kinds of the six only (R188). -/
def maskValid (m : Byte) : Bool := decide (m.toNat < 64)

end Sys2Proof.Machine
end

