-- ==== Sys2Proof/Machine/Flags.lean ====
section
/-! DEFINITION. The flags and derived states of the device: clip flags and clip states (spec 07, R131, R132), the
report queue with its lost flags (spec 10, R183), internal time comparisons, and the alarm line (R187, R188). -/

namespace Sys2Proof.Machine

/-! ## Internal time (Table 0-3) -/

/-- An elapsed time: the difference of two times mod 4,294,967,296 (log 30). -/
def elapsed (now since : Nat) : Nat := (now + (Config.wrap32 - since % Config.wrap32)) % Config.wrap32

/-- One time is later than another when its difference from the other lies from 1 to 2,147,483,647 (log 30). -/
def laterTime (a b : Nat) : Bool := decide (1 ≤ elapsed a b ∧ elapsed a b ≤ 2147483647)

/-- Internal time some ms on, wrapping. -/
def timePlus (t ms : Nat) : Nat := (t + ms) % Config.wrap32

/-! ## Clip flags and states -/

/-- The holed flag set again from the angle's range (R131). -/
def Angle.rehole (a : Angle) (t : Train) : Angle := { a with holed := t.holed a.inSerial a.outSerial }

/-- The state of a clip derived from its angles (R132). -/
def clipStateOf (angles : List Angle) : ClipState :=
  if angles.all fun a => a.present && !a.holed && !a.trimmed then .valid
  else if angles.all fun a => !a.present then .lost
  else .partialClip

/-- The clip with its state derived again (R132). -/
def Clip.derive (c : Clip) : Clip := { c with state := clipStateOf c.angles }

/-! ## Report classes and the report queue -/

/-- The place of a class in Table 11-4. -/
def classIndex : ReportClass → Fin 6
  | .transport => 0
  | .edge => 1
  | .clip => 2
  | .train => 3
  | .runlog => 4
  | .fault => 5

/-- The class of a report (Table 10-2). -/
def ReportBody.cls : ReportBody → ReportClass
  | .stateChanged .. | .keyRefused .. => .transport
  | .edgeHold .. | .pushed .. | .holeSkipped .. | .caughtUp .. | .followLost .. => .edge
  | .committed .. | .trimmed .. | .lost .. | .deleted .. | .bankCleared .. => .clip
  | .stalled .. | .resumed .. | .discontinuity .. | .mapFull .. | .serialLimit .. => .train
  | .appended .. => .runlog
  | .recorded .. => .fault

/-- The lowest priority held in a queue (R183). -/
def lowestPriority (q : List Report) : Nat := q.foldr (fun r p => min r.priority p) 3

/-- The highest priority held in a queue (R183). -/
def highestPriority (q : List Report) : Nat := q.foldr (fun r p => max r.priority p) 0

/-- The queue without its youngest report of a priority (R183). -/
def dropYoungest (p : Nat) (q : List Report) : List Report := (q.reverse.eraseP fun r => r.priority == p).reverse

/-- The youngest report of a priority. -/
def youngestOf (p : Nat) (q : List Report) : Option Report := q.reverse.find? fun r => r.priority == p

/-- Set the lost flag of a class (R183). -/
def ReportUnit.lose (u : ReportUnit) (c : ReportClass) : ReportUnit :=
  { u with lost := u.lost.set (classIndex c) true }

/-- A report handed to the queue, settled against the lowest priority held when the queue is full (R183). -/
def ReportUnit.hand (u : ReportUnit) (r : Report) : ReportUnit :=
  if u.queue.length < 64 then { u with queue := u.queue ++ [r] }
  else
    let low := lowestPriority u.queue
    if low < r.priority then
      match youngestOf low u.queue with
      | some victim => { u.lose victim.body.cls with queue := dropYoungest low u.queue ++ [r] }
      | none => u.lose r.body.cls
    else u.lose r.body.cls

/-- The report the lane takes next: the oldest of the highest priority held (R183). -/
def nextReport (q : List Report) : Option Report := q.find? fun r => r.priority == highestPriority q

/-- The queue without the report the lane takes next. -/
def dropNext (q : List Report) : List Report := q.eraseP fun r => r.priority == highestPriority q

/-! ## The alarm line (R187, Table 10-3) -/

/-- The bit of a fault kind in the alarm mask, in the order of Table 11-4. -/
def faultBit : FaultKind → Nat
  | .trainStalled => 0
  | .ingestSequence => 1
  | .playoutGap => 2
  | .panelLost => 3
  | .controlOverload => 4
  | .serialLimit => 5

/-- The kind is selected by the alarm mask. -/
def Alarm.selects (a : Alarm) (k : FaultKind) : Bool := a.mask.getLsbD (faultBit k)

/-- A masked fault: the line is driven, the hold started or restarted, a waiting clear dropped. -/
def Alarm.drive (a : Alarm) (now : Nat) : Alarm :=
  { a with line := .asserted, hold := some { start := now, finish := timePlus now a.holdTime } }

/-- A hold is held and its hold end is reached. -/
def Alarm.holdDue (a : Alarm) (now : Nat) : Bool :=
  match a.hold with
  | some h => !laterTime h.finish now
  | none => false

/-- The hold is running: it was started, and its hold end is not yet reached. -/
def Alarm.running (a : Alarm) (now : Nat) : Bool :=
  match a.hold with
  | some h => laterTime h.finish now
  | none => false

/-- A clear: CLEARING while the hold runs, released when it has ended. -/
def Alarm.clear (a : Alarm) (now : Nat) : Alarm :=
  match a.line with
  | .deasserted => a
  | .clearing => a
  | .asserted => if a.running now then { a with line := .clearing } else { a with line := .deasserted, hold := none }

/-- The hold end is reached: the hold no longer runs, and a line in CLEARING is released. -/
def Alarm.holdEnds (a : Alarm) : Alarm :=
  { a with hold := none, line := if a.line = .clearing then .deasserted else a.line }

/-- The running hold under a new alarm hold: its hold end becomes the later of the one it had and its start plus
the new hold (R188). -/
def Hold.lengthen (h : Hold) (holdTime : Nat) : Hold :=
  let other := timePlus h.start holdTime
  if laterTime other h.finish then { h with finish := other } else h

/-- The ms remaining of a running hold (R186). -/
def Alarm.remaining (a : Alarm) (now : Nat) : Option Nat :=
  match a.hold with
  | some h => if laterTime h.finish now then some (elapsed h.finish now) else none
  | none => none

end Sys2Proof.Machine
end

