-- ==== Sys2Proof/Machine/Ops.lean ====
section
/-! DEFINITION. The operations the meanings share: reads and writes of the replicated records, raising reports and
recording faults (spec 10), committing a change of a channel (R69, R70, R46, R83, R87, R111), clip sessions and the
run log (R73, R174, R175), sources, bounds and head mapping (R47, R41), lock counts (R26). -/

namespace Sys2Proof.Machine

/-! ## Replicated records -/

/-- The record of train x. -/
def State.train (s : State) (x : TrainId) : Train := s.trains[x.val]
/-- The record of train x replaced. -/
def State.setTrain (s : State) (x : TrainId) (t : Train) : State := { s with trains := s.trains.set x.val t }
/-- The anchor list of train x. -/
def State.map (s : State) (x : TrainId) : AnchorMap := s.maps[x.val]
/-- The anchor list of train x replaced. -/
def State.setMap (s : State) (x : TrainId) (m : AnchorMap) : State := { s with maps := s.maps.set x.val m }
/-- The record of channel c. -/
def State.channel (s : State) (c : ChannelId) : Channel := s.channels[c.val]
/-- The record of channel c replaced. -/
def State.setChannel (s : State) (c : ChannelId) (ch : Channel) : State :=
  { s with channels := s.channels.set c.val ch }
/-- What the queue unit holds for channel c. -/
def State.queue (s : State) (c : ChannelId) : PlayQueue := s.queues[c.val]
/-- What the queue unit holds for channel c replaced. -/
def State.setQueue (s : State) (c : ChannelId) (q : PlayQueue) : State := { s with queues := s.queues.set c.val q }
/-- The record of panel p. -/
def State.panel (s : State) (p : PanelId) : Panel := s.panels[p.val]
/-- The record of panel p replaced. -/
def State.setPanel (s : State) (p : PanelId) (r : Panel) : State := { s with panels := s.panels.set p.val r }

/-- Every record of a replicated kind changed alike, through lists, which Lean's kernel can compute with. -/
def mapRecords {α : Type} {n : Nat} (f : α → α) (v : Vector α n) : Vector α n := ⟨⟨v.toArray.toList.map f⟩, by simp⟩

/-- Channels A to F. -/
def allChannels : List ChannelId := [0, 1, 2, 3, 4, 5]
/-- Trains 0 to 15. -/
def allTrains : List TrainId := [0, 1, 2, 3, 4, 5, 6, 7, 8, 9, 10, 11, 12, 13, 14, 15]
/-- Panels 0 to 3. -/
def allPanels : List PanelId := [0, 1, 2, 3]

/-! ## Reports and faults -/

/-- A report is raised: handed to the queue with its class's priority when the class is enabled, and otherwise
discarded (R182, R183). -/
def State.raise (s : State) (b : ReportBody) : State :=
  let c := s.reports.settings[(classIndex b.cls).val]
  if c.enabled then
    { s with reports := s.reports.hand { body := b, time := s.time, priority := c.priority } }
  else s

/-- A fault is recorded: first, latest, count, report, alarm line (R185). -/
def State.recordFault (s : State) (k : FaultKind) (object : Option Nat) : State :=
  let entry : FaultEntry := { kind := k, object := object, time := s.time }
  let count := if s.faults.count < 65535 then s.faults.count + 1 else s.faults.count
  let s1 : State := { s with faults :=
    { first := if s.faults.count = 0 then some entry else s.faults.first, latest := some entry, count := count } }
  let s2 := s1.raise (.recorded k object s.time count)
  if s2.alarm.selects k then { s2 with alarm := s2.alarm.drive s2.time } else s2

/-! ## Clips, sources and bounds -/

/-- The clip with an id. -/
def State.clipOf (s : State) (id : Nat) : Option Clip := s.clips.find? fun c => c.id == id

/-- The clip record with an id replaced. -/
def State.setClip (s : State) (c : Clip) : State :=
  { s with clips := s.clips.map fun d => if d.id = c.id then c else d }

/-- An angle of a clip. -/
def State.angleOf (s : State) (id index : Nat) : Option Angle := (s.clipOf id).bind fun c => c.angles[index]?

/-- The angle of a clip when it is present: the clip is in the table and not LOST, and the index names a present
angle (R72, R164). -/
def State.presentAngle (s : State) (id index : Nat) : Option Angle :=
  match s.clipOf id with
  | none => none
  | some c =>
    if c.state = .lost then none
    else match c.angles[index]? with
      | none => none
      | some a => if a.present then some a else none

/-- The source train: the TRAIN-source train, or the train of the CLIP source's angle (R74, R79). -/
def State.sourceTrain (s : State) : Source → Option TrainId
  | .noSource => none
  | .train x => some x
  | .clip id index => (s.angleOf id index).map (·.train)

/-- A source as a record carries it (Table 11-3). -/
def State.sourceField (s : State) (src : Source) : SourceField := { source := src, train := s.sourceTrain src }

/-- The lowest and highest serials the source allows: the bounds of R47, divided by 1200. -/
def State.bounds (s : State) : Source → Option (Nat × Nat)
  | .noSource => none
  | .train x =>
    match (s.train x).oldestEdge, (s.train x).recordEdge with
    | some a, some b => some (a, b)
    | _, _ => none
  | .clip id index => (s.angleOf id index).map fun a => (a.inSerial, a.outSerial)

/-- A head position on train a mapped onto train b; a train maps onto itself unchanged, with no lookup (R41). -/
def State.mapHead (s : State) (a b : TrainId) (h : Nat) : Lookup Nat :=
  if a = b then .found h
  else mapAcross s.timebase (s.train a) (s.map a) (s.train b) (s.map b) h

/-- The serial-to-timecode lookup on train x (R39). -/
def State.timecodeAt (s : State) (x : TrainId) (serial : Nat) : Lookup Timecode :=
  timecodeOf s.timebase (s.train x) (s.map x) serial

/-- The timecode field for a serial of train x, absent when it has none (R32, R39). -/
def State.fieldAt (s : State) (x : TrainId) (serial : Nat) : Option LabelPhase :=
  match s.timecodeAt x serial with
  | .found tc => some (s.timebase.field tc)
  | _ => none

/-- The timecode-to-serial lookup on train x (R40). -/
def State.serialAt (s : State) (x : TrainId) (tcnum phase : Nat) : Option Nat :=
  serialOf s.timebase (s.train x) (s.map x) tcnum phase

/-- The live position on a train: the record edge less D_live, or the oldest edge when that lies below it (R58). -/
def Train.liveHead (t : Train) (delay : Nat) : Option Nat :=
  match t.oldestEdge, t.recordEdge with
  | some a, some b => some ((if (b : Int) - delay < a then a else b - delay) * Config.sfu)
  | _, _ => none

/-- The clip is in use: it is the CLIP source of a channel (R141). -/
def State.usedBy (s : State) (id : Nat) (c : ChannelId) : Bool :=
  match (s.channel c).source with
  | .clip id' _ => id' == id
  | _ => false

/-- The channels for which a clip is in use (R141, R148). -/
def State.users (s : State) (id : Nat) : List ChannelId := allChannels.filter (s.usedBy id)

/-- The transport summary of R71: the head as serial and fraction, absent in IDLE. -/
def State.transport (s : State) (c : ChannelId) : TransportSummary :=
  let ch := s.channel c
  { state := ch.state, source := s.sourceField ch.source,
    head := if ch.state = .idle then none else some (ch.head / Config.sfu, ch.head % Config.sfu),
    speed := ch.speed, target := ch.target }

/-! ## Panels and channels -/

/-- The panel bound to a channel (R97: at most one). -/
def State.boundPanel (s : State) (c : ChannelId) : Option PanelId :=
  allPanels.find? fun p => (s.panel p).binding == some c

/-- A panel's arm state set. -/
def State.setArm (s : State) (p : PanelId) (a : ArmState) : State := s.setPanel p { s.panel p with arm := a }

/-- The panel bound to channel c becomes DISARMED when it is LOST (R111). -/
def State.disarmLost (s : State) (c : ChannelId) : State :=
  match s.boundPanel c with
  | some p => if (s.panel p).arm = .lost then s.setArm p .disarmed else s
  | none => s

/-- The panel bound to channel c becomes DISARMED (R81, R110). -/
def State.disarm (s : State) (c : ChannelId) : State :=
  match s.boundPanel c with
  | some p => s.setArm p .disarmed
  | none => s

/-- A state entered, with the speeds it is entered with: 0 in IDLE, CUED, JOG and FOLLOWING, 1200 in LIVE (R69,
R157). -/
def Channel.enter (ch : Channel) (st : TransportState) : Channel :=
  match st with
  | .playing => { ch with state := st }
  | .shuttle => { ch with state := st }
  | .live => { ch with state := st, speed := 1200, target := 1200 }
  | _ => { ch with state := st, speed := 0, target := 0 }

/-- What leaving a state discards: jog counts on leaving JOG (R46), the bounce context on leaving PLAYING (R87),
the edge-hold flag on leaving SHUTTLE (R83). -/
def Channel.leave (new old : Channel) : Channel :=
  { new with
    jogAcc := if old.state = .jog ∧ new.state ≠ .jog then 0 else new.jogAcc
    bounce := if old.state = .playing ∧ new.state ≠ .playing then none else new.bounce
    edgeHold := if old.state = .shuttle ∧ new.state ≠ .shuttle then false else new.edgeHold }

/-- The one operation by which an event changes a channel's state or source: the new record is stored with what
leaving the old state discards, a LOST panel is disarmed when the channel leaves SHUTTLE (R111), and
TRANSPORT/STATE_CHANGED is raised when the state or the source has changed (R70). -/
def State.commit (s : State) (c : ChannelId) (cause : Cause) (new : Channel) : State :=
  let old := s.channel c
  let s1 := s.setChannel c (new.leave old)
  let s2 := if old.state = .shuttle ∧ new.state ≠ .shuttle then s1.disarmLost c else s1
  if old.state ≠ new.state ∨ old.source ≠ new.source then
    s2.raise (.stateChanged c old.state new.state (s2.sourceField new.source) (new.head / Config.sfu) cause)
  else s2

/-! ## Clip sessions, queue play and the run log -/

/-- A run log entry appended: the oldest discarded and the overrun flag set at 256, with RUNLOG/APPENDED (R175). -/
def State.appendRun (s : State) (e : RunEntry) : State :=
  let log : RunLog :=
    if s.runLog.entries.length < 256 then { s.runLog with entries := s.runLog.entries ++ [e] }
    else { entries := s.runLog.entries.drop 1 ++ [e], overrun := true }
  State.raise { s with runLog := log } (.appended e.channel e.clip e.outcome log.entries.length)

/-- A clip session opens on the channel's CLIP source (R73, R174). -/
def State.openSession (s : State) (c : ChannelId) : State :=
  match (s.channel c).source with
  | .clip id index =>
    match s.angleOf id index with
    | some a =>
      let r : Session := { clip := id, train := a.train, firstCount := none, lastCount := none, presented := 0 }
      s.setQueue c { s.queue c with session := some r }
    | none => s
  | _ => s

/-- A session opens when none is open (R73, third case). -/
def State.openIfNone (s : State) (c : ChannelId) : State :=
  if (s.queue c).session.isNone then s.openSession c else s

/-- A present with k of 1 or more is counted to the open session (R174). A count past the range is a free value
(log 17). -/
def State.countPresent (s : State) (c : ChannelId) (n : Nat) : State :=
  match (s.queue c).session with
  | none => s
  | some r =>
    let inRange := decide (r.presented < 4294967295)
    let r' : Session := { r with
      firstCount := some (r.firstCount.getD n)
      lastCount := some n
      presented := if inRange then r.presented + 1 else (Config.framesPastRange s.freeReads).toNat }
    State.setQueue { s with freeReads := if inRange then s.freeReads else s.freeReads + 1 } c
      { s.queue c with session := some r' }

/-- The open session ends with an outcome and is written to the run log (R73, R174). A session that ends inside a
request that advances, of count `req`, counts that request first. -/
def State.endSession (s : State) (c : ChannelId) (outcome : RunOutcome) (req : Option Nat) : State :=
  let s1 := match req with
    | some n => s.countPresent c n
    | none => s
  match (s1.queue c).session with
  | none => s1
  | some r =>
    (s1.setQueue c { s1.queue c with session := none }).appendRun
      { channel := c, clip := r.clip, train := r.train, outcome := outcome, firstCount := r.firstCount,
        lastCount := r.lastCount, presented := r.presented }

/-- Queue play ends: the flag is cleared and the entries stay (R172). -/
def State.endQueuePlay (s : State) (c : ChannelId) : State := s.setQueue c { s.queue c with playing := false }

/-- A programme is cut: the open session ends with an outcome outside any request, and queue play ends (R73, R172). -/
def State.cutProgramme (s : State) (c : ChannelId) (outcome : RunOutcome) : State :=
  (s.endSession c outcome none).endQueuePlay c

/-- The bounce context a channel on this source enters PLAYING with at target T (R87); none on a TRAIN source. -/
def State.freshBounce (s : State) (src : Source) (target : Int) : Option Bounce :=
  match src with
  | .clip id _ =>
    some {
      direction := if 0 ≤ target then .forward else .reverse
      passes := match (s.clipOf id).bind (·.bounce) with
        | some b => if b.passes = 0 then none else some b.passes
        | none => none }
  | _ => none

/-- Vf and Vr of the clip, 1200 su each when it holds none (R87). -/
def State.bounceSpeeds (s : State) (src : Source) : Int × Int :=
  match src with
  | .clip id _ =>
    match (s.clipOf id).bind (·.bounce) with
    | some b => (b.forwardSpeed, b.reverseSpeed)
    | none => (1200, 1200)
  | _ => (1200, 1200)

/-- The speed of a queue entry: its own, else the clip's play speed, else 1200 su (R164). -/
def State.entrySpeed (s : State) (e : QueueEntry) : Int :=
  match e.speed with
  | some v => v
  | none => ((s.clipOf e.clip).bind (·.speed)).getD 1200

/-- The angle index an entry names: its own, or the clip's primary angle (R164). -/
def State.entryAngle (s : State) (e : QueueEntry) : Option Nat :=
  (s.clipOf e.clip).map fun c => e.angle.getD c.primary

/-- The angle of a loadable entry: its clip is in the table and not LOST and the angle it names is present
(R164). -/
def State.loadable (s : State) (e : QueueEntry) : Option (Nat × Angle) :=
  (s.entryAngle e).bind fun i => (s.presentAngle e.clip i).map fun a => (i, a)

/-! ## Lock counts (R26) -/

/-- The lock count of an extent; the list holds the non-zero counts in extent order. -/
def lockCount (locks : List (Nat × Nat)) (e : Nat) : Nat :=
  match locks with
  | [] => 0
  | (x, n) :: rest => if x = e then n else lockCount rest e

/-- The lock count of an extent set, keeping the canonical form: extents strictly rising, no count of 0. -/
def setLock (locks : List (Nat × Nat)) (e n : Nat) : List (Nat × Nat) :=
  match locks with
  | [] => if n = 0 then [] else [(e, n)]
  | (x, m) :: rest =>
    if e < x then (if n = 0 then (x, m) :: rest else (e, n) :: (x, m) :: rest)
    else if e = x then (if n = 0 then rest else (e, n) :: rest)
    else (x, m) :: setLock rest e n

/-- The canonical form of the lock counts. -/
def locksWf : List (Nat × Nat) → Bool
  | [] => true
  | [(_, n)] => decide (0 < n)
  | (x, n) :: (y, m) :: rest => decide (0 < n ∧ x < y) && locksWf ((y, m) :: rest)

/-- The lock count of an extent raised by 1. -/
def raiseLock (locks : List (Nat × Nat)) (e : Nat) : List (Nat × Nat) := setLock locks e (lockCount locks e + 1)

/-- The lock count of an extent lowered by 1. -/
def lowerLock (locks : List (Nat × Nat)) (e : Nat) : List (Nat × Nat) := setLock locks e (lockCount locks e - 1)

/-- The chain extents of train x that touch serials a to b (section 7.4). -/
def State.touched (s : State) (x : TrainId) (a b : Nat) : List Nat :=
  ((s.train x).chain.filter (·.touches a b)).map (·.extent)

end Sys2Proof.Machine
end

