-- ==== Sys2Proof/Machine/Port.lean ====
section
/-! DEFINITION. The command port (spec 10, R178 to R181) and the outgoing lanes (R192): arrival at the buffer, the
turn of a command, replies, and what a lane sends next. -/

namespace Sys2Proof.Machine

/-- What one step answers. -/
abbrev Result := Host.Outcome State Fault Refusal

/-! ## Outgoing lanes -/

/-- The control lane finishes what it sends and takes the next record: the oldest waiting reply, else the report
R183 places first, else nothing (R181, log 3). -/
def State.sendControl (s : State) : State :=
  match s.port.replies with
  | r :: rest => { s with port := { s.port with replies := rest, sending := some (.reply r.reply) } }
  | [] =>
    match nextReport s.reports.queue with
    | some r => { s with
        port := { s.port with sending := some (.report r) }
        reports := { s.reports with queue := dropNext s.reports.queue } }
    | none => { s with port := { s.port with sending := none } }

/-- A lane finishes what it sends and takes the next answer in the order they were formed (R192). -/
def Lane.advance {α : Type} (l : Lane α) : Lane α :=
  match l.waiting with
  | a :: rest => { waiting := rest, sending := some a }
  | [] => { waiting := [], sending := none }

/-- An answer formed on a lane (R12, R49). -/
def Lane.form {α : Type} (l : Lane α) (tag : Byte) (a : α) : Lane α := { l with waiting := l.waiting ++ [(tag, a)] }

/-- A panel's lane finishes its echo, and the pending echo leaves as its sending begins (R113). -/
def Panel.sendEcho (p : Panel) : Panel := { p with sending := p.pendingEcho, pendingEcho := none }

/-- The control lane, when it is idle, begins the record R181 chooses. -/
def State.startControl (s : State) : State := if s.port.sending.isNone then s.sendControl else s

/-- An answer lane, when it is idle, begins its next answer (R192). -/
def Lane.start {α : Type} (l : Lane α) : Lane α := if l.sending.isNone then l.advance else l

/-- A panel's lane, when it is idle, begins its pending echo (R113). -/
def Panel.startEcho (p : Panel) : Panel := if p.sending.isNone then p.sendEcho else p

/-- Every idle lane begins what it has to send: after each event, once all the event's replies, reports, answers and
echoes stand in their places (R113, R181, R192, log 3). -/
def State.startLanes (s : State) : State :=
  let s1 := s.startControl
  { s1 with
    ingest := s1.ingest.start
    playout := s1.playout.start
    panels := mapRecords Panel.startEcho s1.panels }

/-- What carrying out a command comes to: done, with the body of its OK reply; or refused with a status, changing
nothing (R180). -/
inductive Verdict where
  | done (s : State) (body : ReplyBody)
  | refuse (st : Status)
  deriving DecidableEq, Repr

/-- An event: its effect, and then the idle lanes begin what they have to send (R181). While the reset input is
asserted nothing is taken and nothing is sent (R194). -/
def powered (s : State) (f : State → State) : Result := .next (if s.resetAsserted then s else (f s).startLanes)

/-! ## The command port -/

/-- The places held in the command buffer: commands not yet carried out, and replies to dispatched commands whose
sending has not begun (R178). -/
def CommandPort.placesHeld (p : CommandPort) : Nat := p.waiting.length + (p.replies.filter fun r => !r.overload).length

/-- The OVERLOAD replies waiting for the lane (R178). -/
def CommandPort.overloads (p : CommandPort) : Nat := (p.replies.filter (·.overload)).length

/-- A reply formed and set waiting for the lane, behind any replies already waiting (R178, R180). -/
def State.formReply (s : State) (kind tag : Byte) (st : Status) (body : ReplyBody) (overload : Bool) : State :=
  let r : WaitingReply := { reply := { kind := kind, tag := tag, status := st, body := body }, overload := overload }
  { s with port := { s.port with replies := s.port.replies ++ [r] } }

/-- A command arrives (R178): it takes a free place; at a full buffer it is not carried out, an OVERLOAD reply is
formed while fewer than 8 wait, and fault CONTROL_OVERLOAD is recorded. -/
def State.arrive (s : State) (i : Instr) (kind tag : Byte) : State :=
  if s.port.placesHeld < 4 then { s with port := { s.port with waiting := s.port.waiting ++ [i] } }
  else
    let s1 := if s.port.overloads < 8 then s.formReply kind tag .overload .empty true else s
    s1.recordFault .controlOverload none

/-- The turn of a command at the port (R178, R179; log 1). The oldest buffered command is carried out and leaves the
waiting part of the buffer. A command that is not in the buffer arrives: with nothing waiting and a place free it is
carried out at once, and otherwise it waits behind the others or is overloaded. -/
def State.turn (s : State) (i : Instr) (kind tag : Byte) (carry : State → State) : State :=
  match s.port.waiting with
  | [] => if s.port.placesHeld < 4 then carry s else s.arrive i kind tag
  | j :: rest =>
    if j = i then carry { s with port := { s.port with waiting := rest } } else s.arrive i kind tag

/-- The reply of a verdict: an OK reply with its body after the effect, or the refusal's status alone (R180). -/
def State.conclude (s : State) (kind tag : Byte) : Verdict → State
  | .done s' body => s'.formReply kind tag .ok body false
  | .refuse st => s.formReply kind tag st .empty false

/-- Carrying out a command whose record is as received: BAD_LENGTH and BAD_VALUE bodies are answered and change
nothing else; otherwise its block carries it out (R179, R193, log 12). -/
def State.dispatch {α : Type} (s : State) (kind tag : Byte) (a : Sent α) (f : α → State → Verdict) : State :=
  match a with
  | .badLength => s.formReply kind tag .badLength .empty false
  | .badByte => s.formReply kind tag .badValue .empty false
  | .fields v => s.conclude kind tag (f v s)

/-- A command row: the turn of the command at the port. -/
def command {α : Type} (i : Instr) (kind tag : Byte) (a : Sent α) (f : α → State → Verdict) (s : State) : Result :=
  powered s fun s => s.turn i kind tag fun s => s.dispatch kind tag a f

/-! ## Meanings -/

/-- UNKNOWN_KIND: a buffered record whose kind is not a command kind is answered UNKNOWN_KIND (R179). -/
def execUnknownKind (kind tag : Byte) (s : State) : Result :=
  powered s fun s => s.turn (.unknownKind kind tag) kind tag fun s => s.formReply kind tag .unknownKind .empty false

/-- CONTROL_RECORD_SENT (R181). -/
def execControlRecordSent (s : State) : Result := powered s State.sendControl

/-- ANSWER_SENT (R192). -/
def execAnswerSent (lane : AnswerLane) (s : State) : Result :=
  powered s fun s =>
    match lane with
    | .ingest => { s with ingest := s.ingest.advance }
    | .playout => { s with playout := s.playout.advance }

/-- ECHO_SENT (R113). -/
def execEchoSent (p : PanelId) (s : State) : Result :=
  powered s fun s => s.setPanel p (s.panel p).sendEcho

end Sys2Proof.Machine
end

