-- ==== Sys2Proof/Machine/Reclaim.lean ====
section
/-! DEFINITION. Reclaim and discard of a train's frames, and what they do to the timecode map, the clip table and the
channels (spec 01 R6, R22, R23; spec 02 R38; spec 07 R134 to R136; spec 04 R91; spec 06 R119). -/

namespace Sys2Proof.Machine

/-! ## Gang pairs (R155) -/

/-- The leader of a pair's second channel: A for B, C for D, E for F. -/
def leaderOf (c : ChannelId) : Option ChannelId :=
  match c with
  | 1 => some 0
  | 3 => some 2
  | 5 => some 4
  | _ => none

/-- The follower of a pair's first channel. -/
def followerOf (c : ChannelId) : Option ChannelId :=
  match c with
  | 0 => some 1
  | 2 => some 3
  | 4 => some 5
  | _ => none

/-- A channel's gang role set. -/
def State.setRole (s : State) (c : ChannelId) (r : GangRole) : State := s.setChannel c { s.channel c with role := r }

/-- A follower leaves its gang: both roles become NONE (R162, R163). -/
def State.leaveGang (s : State) (follower : ChannelId) : State :=
  match leaderOf follower with
  | some l => (s.setRole follower .noGang).setRole l .noGang
  | none => s

/-- A channel goes to IDLE with no source, as UNLOAD leaves it, its session ending with the outcome given (R75, R6). -/
def State.unloadChannel (s : State) (c : ChannelId) (cause : Cause) (outcome : RunOutcome) : State :=
  let s1 := s.cutProgramme c outcome
  let ch := s1.channel c
  let emptied : Channel := { ch with source := .noSource, head := 0, bounce := none, edgeHold := false, jogAcc := 0 }
  s1.commit c cause (emptied.enter .idle)

/-! ## Angles reached by a reclaim or discard -/

/-- The angle is present on train x and its range shares a serial with a to b (R134). -/
def Angle.reached (x : TrainId) (a b : Nat) (g : Angle) : Bool :=
  g.present && decide (g.train = x) && decide (g.inSerial ≤ b ∧ a ≤ g.outSerial)

/-- Table 7-2: the first case that fits, for a chain that has already lost the serials a to b (R134, log 21). -/
def Angle.reclaim (t : Train) (a b : Nat) (g : Angle) : Angle × TrimCase :=
  if a ≤ g.inSerial ∧ g.outSerial ≤ b then ({ g with present := false }, .case1)
  else if a ≤ g.inSerial then
    (Angle.rehole { g with inSerial := (t.leastAbove b).getD g.inSerial, trimmed := true } t, .case2)
  else if g.outSerial ≤ b then
    (Angle.rehole { g with outSerial := (t.greatestBelow a).getD g.outSerial, trimmed := true } t, .case3)
  else (g.rehole t, .case4)

/-- The angles of a list that a change reaches, by index, each with its case. -/
def angleChanges (f : Angle → Option (Angle × TrimCase)) (angles : List Angle) : List (Nat × TrimCase) :=
  angles.zipIdx.filterMap fun gi => (f gi.1).map fun r => (gi.2, r.2)

/-- The angle list after a change. -/
def changedAngles (f : Angle → Option (Angle × TrimCase)) (angles : List Angle) : List Angle :=
  angles.map fun g => ((f g).map (·.1)).getD g

/-- One clip reached: its angles changed, its state derived again, one report raised; with it the (clip id, angle
index) pairs just made not present are kept, in order (R135). -/
def reachClip (x : TrainId) (range : TrimRange) (f : Clip → Angle → Option (Angle × TrimCase))
    (acc : State × List (Nat × Nat)) (c : Clip) : State × List (Nat × Nat) :=
  let changes := angleChanges (f c) c.angles
  if changes.isEmpty then acc
  else
    let c' := Clip.derive { c with angles := changedAngles (f c) c.angles }
    let report : ReportBody :=
      if c'.state = .lost then .lost c.id x range c'.state else .trimmed c.id x range c'.state changes
    ((acc.1.setClip c').raise report,
     acc.2 ++ changes.filterMap fun ic => if ic.2 = .case1 then some (c.id, ic.1) else none)

/-- The clips reached by one reclaim of serials a to b on train x, in ascending id order (R134, R135). -/
def State.reclaimClips (s : State) (x : TrainId) (a b : Nat) : State × List (Nat × Nat) :=
  let t := s.train x
  s.clips.foldl (reachClip x (.serials a b) fun c g =>
    if c.lock = .unlocked ∧ g.reached x a b then some (g.reclaim t a b) else none) (s, [])

/-- The clips reached by the discard of train x: every present angle on it becomes not present (R136). -/
def State.discardClips (s : State) (x : TrainId) : State :=
  (s.clips.foldl (reachClip x .wholeTrain fun _ g =>
    if g.present ∧ g.train = x then some ({ g with present := false }, .discarded) else none) (s, [])).1

/-! ## Channels reached -/

/-- A TRAIN-source head inside the reclaimed range is pushed to the next chain entry, with EDGE/PUSHED (R23). -/
def State.pushHead (x : TrainId) (a b next : Nat) (s : State) (c : ChannelId) : State :=
  let ch := s.channel c
  if ch.source = .train x ∧ a ≤ ch.head / Config.sfu ∧ ch.head / Config.sfu ≤ b then
    (s.setChannel c { ch with head := next * Config.sfu }).raise (.pushed c x (ch.head / Config.sfu) next)
  else s

/-- The angle-loss handling of a channel (R91). -/
def State.loseAngle (x : TrainId) (next : Nat) (s : State) (c : ChannelId) : State :=
  let s1 := s.cutProgramme c .aborted
  let moved : Channel := { s1.channel c with
    source := .train x, head := next * Config.sfu, bounce := none, edgeHold := false, jogAcc := 0 }
  s1.commit c .angleLoss (moved.enter .cued)

/-- Every channel whose CLIP source is an angle just made not present takes the angle-loss handling (R23, R135). -/
def State.loseAngles (x : TrainId) (next : Nat) (s : State) (lost : Nat × Nat) : State :=
  allChannels.foldl (fun s c =>
    if (s.channel c).source = .clip lost.1 lost.2 then s.loseAngle x next c else s) s

/-- The chain entry that follows an extent's. -/
def entryAfter (extent : Nat) : List ChainEntry → Option ChainEntry
  | a :: b :: rest => if a.extent = extent then some b else entryAfter extent (b :: rest)
  | _ => none

/-- Reclaim of a retained extent (R22, R23): its entry leaves the chain; then the timecode mapper, the clip table and
the channel engines are reached, in this order (log 14). -/
def State.reclaim (s : State) (x : TrainId) (e : ChainEntry) : State :=
  let t := s.train x
  let a := e.first
  let b := e.last
  let next := ((entryAfter e.extent t.chain).map (·.first)).getD t.serialCounter
  let t' : Train := { t with chain := t.chain.filter fun d => d.extent != e.extent }
  let s1 := s.setTrain x t'
  let s2 := s1.setMap x ((s1.map x).dropUnheld t')
  let r := s2.reclaimClips x a b
  let s3 := allChannels.foldl (State.pushHead x a b next) r.1
  r.2.foldl (State.loseAngles x next) s3

/-! ## Discard -/

/-- The marks of one channel that lie on train x become absent (R119). -/
def Channel.dropMarks (ch : Channel) (x : TrainId) : Channel :=
  { ch with
    markIn := ch.markIn.filter fun m => decide (m.train ≠ x)
    markOut := ch.markOut.filter fun m => decide (m.train ≠ x) }

/-- A channel whose source lies on train x goes to IDLE, and a follower leaves its gang (step 4 of R6, R163). -/
def State.discardChannel (x : TrainId) (s : State) (c : ChannelId) : State :=
  if s.sourceTrain (s.channel c).source = some x then
    let s1 := if (s.channel c).state = .following then s.leaveGang c else s
    s1.unloadChannel c .trainDiscard .aborted
  else s

/-- The discard of a train's material (R6, R119, log 14). -/
def State.discard (s : State) (x : TrainId) : State :=
  let s1 := s.setTrain x { s.train x with chain := [], reserved := none, inFlight := none }
  let s2 := s1.setMap x .initial
  let s3 := s2.discardClips x
  let s4 := allChannels.foldl (fun s c => s.setChannel c ((s.channel c).dropMarks x)) s3
  allChannels.foldl (State.discardChannel x) s4

end Sys2Proof.Machine
end

