-- ==== Sys2Proof/Machine/Queues.lean ====
section
/-! DEFINITION. The queue unit (spec 09): editing a play queue, queue loads, queue play, and reading the run log. -/

namespace Sys2Proof.Machine

/-! ## Queue loads (R169) -/

/-- The run log entry of a queue entry thrown away: the channel of its queue, its clip, the train of the angle it
names, no counts (R175, log 21). -/
def skippedEntry (c : ChannelId) (e : QueueEntry) (angle : Option Angle) (outcome : RunOutcome) : RunEntry :=
  { channel := c, clip := e.clip, train := (angle.map (·.train)).getD 0, outcome := outcome, firstCount := none,
    lastCount := none, presented := 0 }

/-- The head entries of a queue that cannot be loaded (R169, step 1). -/
def State.unloadable (s : State) (c : ChannelId) : List QueueEntry :=
  (s.queue c).entries.takeWhile fun e => (s.loadable e).isNone

/-- Entries of channel c's queue logged as thrown away, in order (R169, R173). -/
def State.logSkipped (s : State) (c : ChannelId) (outcome : RunOutcome) (angle : QueueEntry → Option Angle)
    (es : List QueueEntry) : State :=
  es.foldl (fun s e => s.appendRun (skippedEntry c e (angle e) outcome)) s

/-- Skipping: head entries that are not loadable are removed, each logged SKIPPED_LOST (R169, step 1). -/
def State.skip (s : State) (c : ChannelId) : State :=
  let lost := s.unloadable c
  (s.setQueue c { s.queue c with entries := (s.queue c).entries.drop lost.length }).logSkipped c .skippedLost
    (fun e => (s.entryAngle e).bind fun i => s.angleOf e.clip i) lost

/-- The entry a load would take: the head of the queue, when it is loadable (R169, step 2). -/
def State.headEntry (s : State) (c : ChannelId) : Option (QueueEntry × Nat × Angle) :=
  (s.queue c).entries.head?.bind fun e => (s.loadable e).map fun ia => (e, ia.1, ia.2)

/-- The entry loaded: the clip becomes the source at its in serial in PLAYING, with T (and C, when the change is a
cut) the speed of the entry; a new bounce context, a new session, and the queue-play flag set (R169, step 2). The
cause is QUEUE, but KEY for a key (R105, log 15). -/
def State.loadEntry (s : State) (c : ChannelId) (e : QueueEntry) (index : Nat) (a : Angle) (cut : Bool)
    (cause : Cause) : State :=
  let v := s.entrySpeed e
  let src : Source := .clip e.clip index
  let loaded : Channel := { s.channel c with
    state := .playing, source := src, head := a.inSerial * Config.sfu, speed := if cut then v else 0, target := v,
    bounce := s.freshBounce src v, edgeHold := false }
  let s1 := (s.commit c cause loaded).openSession c
  s1.setQueue c { s1.queue c with playing := true }

/-- The entry being played, at index 0, removed. -/
def State.dropHead (s : State) (c : ChannelId) : State :=
  s.setQueue c { s.queue c with entries := (s.queue c).entries.drop 1 }

/-- A channel stops on its clip in CUED because no entry could be loaded, and queue play ends (R169, R170, R90). -/
def State.queueStop (s : State) (c : ChannelId) (cause : Cause) : State :=
  let stopped : Channel := { s.channel c with bounce := none }
  (s.commit c cause (stopped.enter .cued)).endQueuePlay c

/-- What a queue load came to, for the reply: entries skipped, and the clip id and angle index loaded. -/
structure LoadOutcome where
  state : State
  skipped : Nat
  loaded : Option (Nat × Nat)
  deriving DecidableEq, Repr

/-- A queue load by a cut: skipping, then the head entry with C = T, or the stop of an empty queue, each with its
cause (R170, R171). -/
def State.cutToNext (s : State) (c : ChannelId) (load stop : Cause) : LoadOutcome :=
  let k := (s.unloadable c).length
  let s1 := s.skip c
  match s1.headEntry c with
  | some (e, i, a) => { state := s1.loadEntry c e i a true load, skipped := k, loaded := some (e.clip, i) }
  | none => { state := s1.queueStop c stop, skipped := k, loaded := none }

/-- QUEUE_NEXT with the flag set: the session ends CUT_SHORT, the entry being played is removed, and a queue load is
made (R170). -/
def State.nextInPlay (s : State) (c : ChannelId) (cause : Cause) : LoadOutcome :=
  ((s.endSession c .cutShort none).dropHead c).cutToNext c cause cause

/-- An accepted QUEUE_START (R169). -/
def State.startQueue (s : State) (c : ChannelId) (cause : Cause) : LoadOutcome :=
  let k := (s.unloadable c).length
  let s1 := s.skip c
  match s1.headEntry c with
  | some (e, i, a) =>
    { state := (s1.endSession c .cutShort none).loadEntry c e i a false cause, skipped := k
      loaded := some (e.clip, i) }
  | none =>
    if (s1.queue c).playing then
      { state := (s1.endSession c .cutShort none).queueStop c cause, skipped := k, loaded := none }
    else { state := s1, skipped := k, loaded := none }

/-- NEXT at hi, after the session has ended: in queue play the entry just finished is removed; then a queue load
(R171, R90). -/
def State.queueAdvance (s : State) (c : ChannelId) : State :=
  (State.cutToNext (if (s.queue c).playing then s.dropHead c else s) c .queue .endAction).state

/-! ## Removal of a clip (R173) -/

/-- The entries of one queue naming a clip removed and logged SKIPPED_DELETED; with the count so far. -/
def State.dropNamed (clip : Clip) (acc : State × Nat) (c : ChannelId) : State × Nat :=
  let q := acc.1.queue c
  let named := q.entries.filter fun e => e.clip == clip.id
  ((acc.1.setQueue c { q with entries := q.entries.filter fun e => e.clip != clip.id }).logSkipped c .skippedDeleted
      (fun e => clip.angles[e.angle.getD clip.primary]?) named,
   acc.2 + named.length)

/-- The queue unit is told of a clip's removal: every queue A to F in order (R173). -/
def State.dropEntries (s : State) (clip : Clip) : State × Nat := allChannels.foldl (State.dropNamed clip) (s, 0)

/-! ## Commands -/

/-- QUEUE_ADD (R165). -/
def queueAdd (a : QueueAddArgs) (s : State) : Verdict :=
  match channelOf a.channel, clipIdOf a.clip, optAngleIndexOf a.angle with
  | some c, some id, some angle =>
    let q := s.queue c
    let badPosition := match a.position with
      | some p => decide (31 < p.toNat ∨ q.entries.length < p.toNat)
      | none => false
    let e : QueueEntry := { clip := id, angle := angle, speed := a.speed.map speedOf }
    if badPosition then .refuse .badValue
    else if 32 ≤ q.entries.length then .refuse .queueFull
    else if (s.loadable e).isNone then .refuse .notFound
    else
      let at' := match a.position with
        | some p => if q.playing && p.toNat == 0 then 1 else p.toNat
        | none => q.entries.length
      let es := q.entries.insertIdx at' e
      .done (s.setQueue c { q with entries := es }) (.queueAdded at' es.length)
  | _, _, _ => .refuse .badValue

/-- QUEUE_REMOVE (R166). -/
def queueRemove (a : ChannelByteArgs) (s : State) : Verdict :=
  match channelOf a.channel with
  | none => .refuse .badValue
  | some c =>
    let q := s.queue c
    if 31 < a.value.toNat then .refuse .badValue
    else if q.entries.length ≤ a.value.toNat then .refuse .notFound
    else if a.value.toNat = 0 ∧ q.playing then
      let s1 := (s.nextInPlay c .queue).state
      .done s1 (.queueRemoved (s1.queue c).entries.length (some (s1.transport c)))
    else
      let es := q.entries.eraseIdx a.value.toNat
      .done (s.setQueue c { q with entries := es }) (.queueRemoved es.length none)

/-- QUEUE_CLEAR (R167). -/
def queueClear (b : Byte) (s : State) : Verdict :=
  match channelOf b with
  | none => .refuse .badValue
  | some c =>
    let q := s.queue c
    let kept := if q.playing then q.entries.take 1 else []
    .done (s.setQueue c { q with entries := kept }) (.queueCleared (q.entries.length - kept.length))

/-- QUERY_QUEUE (R168). -/
def queryQueue (a : ChannelByteArgs) (s : State) : Verdict :=
  match channelOf a.channel with
  | none => .refuse .badValue
  | some c =>
    let q := s.queue c
    if 31 < a.value.toNat then .refuse .badValue
    else .done s (.queue q.playing q.entries.length ((q.entries.drop a.value.toNat).take 16) q.session)

/-- The OK reply of a queue load: entries skipped, what was loaded, the transport summary (R169, R170). -/
def LoadOutcome.verdict (o : LoadOutcome) (c : ChannelId) : Verdict :=
  .done o.state (.queueLoaded o.skipped o.loaded (o.state.transport c))

/-- QUEUE_START on a channel (R169). -/
def queueStartOn (c : ChannelId) (cause : Cause) (s : State) : Verdict :=
  if (s.channel c).state = .following then .refuse .ganged
  else if (s.queue c).entries = [] then .refuse .notFound
  else (s.startQueue c cause).verdict c

/-- QUEUE_START (R169). -/
def queueStart (b : Byte) (s : State) : Verdict :=
  match channelOf b with
  | none => .refuse .badValue
  | some c => queueStartOn c .queue s

/-- QUEUE_NEXT on a channel, by command with cause QUEUE or by key with cause KEY (R170, R105, log 15). -/
def queueNextOn (c : ChannelId) (cause : Cause) (s : State) : Verdict :=
  if (s.channel c).state = .following then .refuse .ganged
  else if (s.queue c).playing then (s.nextInPlay c cause).verdict c
  else queueStartOn c cause s

/-- QUEUE_NEXT (R170). -/
def queueNext (b : Byte) (s : State) : Verdict :=
  match channelOf b with
  | none => .refuse .badValue
  | some c => queueNextOn c .queue s

/-- READ_RUNLOG (R176). -/
def readRunlog (b : Byte) (s : State) : Verdict :=
  if 1 ≤ b.toNat ∧ b.toNat ≤ 8 then
    let left := s.runLog.entries.drop b.toNat
    .done { s with runLog := { s.runLog with entries := left } }
      (.runLog (s.runLog.entries.take b.toNat) left.length s.runLog.overrun)
  else .refuse .badValue

/-- FLUSH_RUNLOG (R177). -/
def flushRunlog (_ : Unit) (s : State) : Verdict :=
  .done { s with runLog := { entries := [], overrun := false } } (.flushed s.runLog.entries.length)

/-! ## Meanings -/

/-- QUEUE_ADD. -/
def execQueueAdd (tag : Byte) (a : Sent QueueAddArgs) (s : State) : Result :=
  command (.queueAdd tag a) 0x58 tag a queueAdd s

/-- QUEUE_REMOVE. -/
def execQueueRemove (tag : Byte) (a : Sent ChannelByteArgs) (s : State) : Result :=
  command (.queueRemove tag a) 0x59 tag a queueRemove s

/-- QUEUE_CLEAR. -/
def execQueueClear (tag : Byte) (a : Sent Byte) (s : State) : Result :=
  command (.queueClear tag a) 0x5A tag a queueClear s

/-- QUERY_QUEUE. -/
def execQueryQueue (tag : Byte) (a : Sent ChannelByteArgs) (s : State) : Result :=
  command (.queryQueue tag a) 0x5B tag a queryQueue s

/-- QUEUE_START. -/
def execQueueStart (tag : Byte) (a : Sent Byte) (s : State) : Result :=
  command (.queueStart tag a) 0x5C tag a queueStart s

/-- QUEUE_NEXT. -/
def execQueueNext (tag : Byte) (a : Sent Byte) (s : State) : Result :=
  command (.queueNext tag a) 0x5D tag a queueNext s

/-- READ_RUNLOG. -/
def execReadRunlog (tag : Byte) (a : Sent Byte) (s : State) : Result :=
  command (.readRunlog tag a) 0x5E tag a readRunlog s

/-- FLUSH_RUNLOG. -/
def execFlushRunlog (tag : Byte) (a : Sent Unit) (s : State) : Result :=
  command (.flushRunlog tag a) 0x5F tag a flushRunlog s

end Sys2Proof.Machine
end

