-- ==== Sys2Proof/Machine/Head.lean ====
section
/-! DEFINITION. The playback head and the present (spec 03), with the bound events and end actions of spec 04
(R81 to R90) and the following of spec 08 (R159, R160): how a FRAME_REQUEST is served. -/

namespace Sys2Proof.Machine

/-! ## Holes and snaps (R48) -/

/-- The head is in a hole: its serial lies between the bounds and is not retained (R48). -/
def inHole (t : Train) (lo hi head : Nat) : Bool :=
  decide (lo ≤ head / Config.sfu ∧ head / Config.sfu ≤ hi) && !t.retained (head / Config.sfu)

/-- A head that a trim, a reclaim, an angle switch or a GOTO has left, between two requests, in a hole of its source or
beyond a bound of its clip (R66, R79, R140, R151, log 38). -/
def displaced (t : Train) (src : Source) (lo hi head : Nat) : Bool :=
  inHole t lo hi head ||
    match src with
    | .clip _ _ => decide (hi * Config.sfu < head ∨ head < lo * Config.sfu)
    | _ => false

/-- Forward snap: to the first serial of the first chain entry whose first serial exceeds the head's, and to hi when
there is none or it exceeds hi (R48); with whether the frame found lies before hi (R60, log 19). -/
def snapForward (t : Train) (hi head : Nat) : Nat × Bool :=
  match t.chain.find? fun e => decide (head / Config.sfu < e.first) with
  | some e => if e.first ≤ hi then (e.first * Config.sfu, decide (e.first < hi)) else (hi * Config.sfu, false)
  | none => (hi * Config.sfu, false)

/-- Backward snap: to the last frame of the last chain entry whose last frame lies below the head's serial, and to lo
when there is none or it lies below lo (R48). -/
def snapBackward (t : Train) (lo head : Nat) : Nat :=
  match t.chain.reverse.find? fun e => e.nonEmpty && decide (e.last < head / Config.sfu) with
  | some e => if lo ≤ e.last then e.last * Config.sfu else lo * Config.sfu
  | none => lo * Config.sfu

/-- A head brought into the bounds lo to hi, given as serials (R55). -/
def clampHead (lo hi : Nat) (h : Int) : Nat :=
  if ((hi * Config.sfu : Nat) : Int) < h then hi * Config.sfu
  else if h < ((lo * Config.sfu : Nat) : Int) then lo * Config.sfu
  else h.toNat

/-- The serials EDGE/HOLE_SKIPPED gives, when a snap moves the head (R48). -/
def snapped (before after : Nat) : Option (Nat × Nat) :=
  if after = before then none else some (before / Config.sfu, after / Config.sfu)

/-- What the resolution of bounds and holes gives: the head, the bound reached (`forward` is hi, `reverse` is lo), and
the serials of a snap (R55, R56). -/
structure Resolved where
  head : Nat
  reached : Option Direction
  snap : Option (Nat × Nat)
  deriving DecidableEq, Repr

/-- The bound a sub-step reaches by its step: hi with C above 0 and H at hi or more, lo with C below 0 and H at lo or
less (R55). -/
def stepReaches (lo hi : Nat) (h speed : Int) : Option Direction :=
  if 0 < speed ∧ ((hi * Config.sfu : Nat) : Int) ≤ h then some .forward
  else if speed < 0 ∧ h ≤ ((lo * Config.sfu : Nat) : Int) then some .reverse
  else none

/-- Resolution of a stepped head against bounds and holes (R55, R56, log 20). -/
def resolve (t : Train) (lo hi : Nat) (h speed : Int) (travel : Direction) : Resolved :=
  let head := clampHead lo hi h
  let reached := stepReaches lo hi h speed
  if inHole t lo hi head then
    match travel with
    | .forward =>
      let dest := (snapForward t hi head).1
      { head := dest, snap := snapped head dest
        reached := if 0 < speed ∧ dest = hi * Config.sfu then some .forward else reached }
    | .reverse =>
      let dest := snapBackward t lo head
      { head := dest, snap := snapped head dest
        reached := if speed < 0 ∧ dest = lo * Config.sfu then some .reverse else reached }
  else { head := head, reached := reached, snap := none }

/-! ## Bound events (R81 to R90) -/

/-- Catch-up to live (R81). -/
def State.catchUp (s : State) (c : ChannelId) (x : TrainId) : State :=
  let ch := s.channel c
  let caught : Channel := { ch with liveDelay := 0, edgeHold := false, bounce := none }
  ((s.raise (.caughtUp c x (ch.head / Config.sfu))).commit c .catchUp (caught.enter .live)).disarm c

/-- CUED at lo (R82). -/
def State.cuedAtLo (s : State) (c : ChannelId) : State :=
  let stopped : Channel := { s.channel c with bounce := none }
  s.commit c .bound (stopped.enter .cued)

/-- Edge hold (R83). -/
def State.holdEdge (s : State) (c : ChannelId) (d : Direction) : State :=
  let ch := s.channel c
  let s1 := s.setChannel c { ch with speed := 0, edgeHold := true }
  if ch.edgeHold then s1 else s1.raise (.edgeHold c (decide (d = .forward)) (ch.head / Config.sfu))

/-- The effective end action at the moment a bound is reached (R84). -/
def State.effectiveEnd (s : State) (c : ChannelId) : EndAction :=
  if (s.queue c).playing then .next
  else match (s.channel c).source with
    | .clip id _ => ((s.clipOf id).bind (·.endAction)).getD (s.channel c).endAction
    | _ => (s.channel c).endAction

/-- STOP at a bound: CUED there, the session COMPLETE (R85, R89). -/
def State.stopAtBound (s : State) (c : ChannelId) (n : Nat) : State :=
  let s1 := s.endSession c .complete (some n)
  let stopped : Channel := { s1.channel c with bounce := none }
  s1.commit c .endAction (stopped.enter .cued)

/-- A bounce reversal: −Vr at hi, +Vf at lo, without a ramp; a finite count of passes falls by 1 (R88). -/
def State.reverseLeg (s : State) (c : ChannelId) (d : Direction) (passes : Option Nat) : State :=
  let ch := s.channel c
  let v := s.bounceSpeeds ch.source
  let speed := match d with
    | .forward => -v.2
    | .reverse => v.1
  let leg : Direction := match d with
    | .forward => .reverse
    | .reverse => .forward
  s.setChannel c { ch with
    speed := speed, target := speed, bounce := some { direction := leg, passes := passes.map (· - 1) } }

/-- BOUNCE at a bound: a reversal, or a stop when no passes remain (R88, R89). -/
def State.bounceAt (s : State) (c : ChannelId) (n : Nat) (d : Direction) : State :=
  match (s.channel c).bounce with
  | some b => if b.passes = some 0 then s.stopAtBound c n else s.reverseLeg c d b.passes
  | none => s.reverseLeg c d none

/-- A bound reached by a channel in PLAYING on a CLIP source whose lo is a serial (R84 to R90). -/
def State.clipBound (s : State) (c : ChannelId) (n lo : Nat) (d : Direction) : State :=
  match s.effectiveEnd c, d with
  | .bounce, _ => s.bounceAt c n d
  | .stop, .forward => s.stopAtBound c n
  | .loop, .forward => s.setChannel c { s.channel c with head := lo * Config.sfu }
  | .next, .forward => (s.endSession c .complete (some n)).queueAdvance c
  | _, .reverse => s.cuedAtLo c

/-- The bound event of a sub-step handed to the channel's state (Table 4-4); a sub-step in SHUTTLE that reaches no
bound clears the edge-hold flag (R83). -/
def State.boundEvent (s : State) (c : ChannelId) (n lo : Nat) (reached : Option Direction) : State :=
  let ch := s.channel c
  match ch.state, ch.source, reached with
  | .shuttle, _, none => s.setChannel c { ch with edgeHold := false }
  | .playing, .clip _ _, some d => s.clipBound c n lo d
  | .playing, .train x, some .forward => if 1200 ≤ ch.speed then s.catchUp c x else s
  | .playing, .train _, some .reverse => s.cuedAtLo c
  | .shuttle, .train x, some .forward => if 1200 ≤ ch.speed then s.catchUp c x else s.holdEdge c .forward
  | .shuttle, _, some d => s.holdEdge c d
  | _, _, _ => s

/-! ## Sub-steps (R51 to R57) -/

/-- C moves toward T by at most A (R53). -/
def ramp (speed target accel : Int) : Int :=
  if speed < target then min (speed + accel) target
  else if target < speed then max (speed - accel) target
  else speed

/-- A channel in SHUTTLE whose bound panel is LOST goes CUED when C, just after the ramp, is 0 (R109). -/
def State.deadManRest (s : State) (c : ChannelId) : State :=
  match s.boundPanel c with
  | some p =>
    if (s.channel c).state = .shuttle ∧ (s.panel p).arm = .lost ∧ (s.channel c).speed = 0 then
      s.commit c .deadMan ((s.channel c).enter .cued)
    else s
  | none => s

/-- The head before the step: in the first sub-step of a request in JOG, moved by the jog accumulator to a whole
frame (R52). -/
def Channel.jogged (ch : Channel) : Int := (((ch.head / Config.sfu : Nat) : Int) + ch.jogAcc) * Config.sfu

/-- One sub-step: jog application, ramp, step, and the resolution of bounds and holes (R51, log 22). A displaced head
is not stepped and reaches nothing, but for a jog: settling brings it back (R60, R66, R79, R140, R151, log 38). -/
def State.subStep (s : State) (c : ChannelId) (n : Nat) (first : Bool) : State :=
  let ch := s.channel c
  let jogging := first && decide (ch.state = .jog)
  let h : Int := if jogging then ch.jogged else ch.head
  let s1 := s.setChannel c { ch with
    speed := ramp ch.speed ch.target ch.accel, jogAcc := if jogging then 0 else ch.jogAcc }
  let s2 := s1.deadManRest c
  let ch2 := s2.channel c
  match s2.sourceTrain ch2.source, s2.bounds ch2.source with
  | some x, some (lo, hi) =>
    let t := s2.train x
    if !jogging && displaced t ch2.source lo hi ch2.head then s2.boundEvent c n lo none
    else
      let travel : Direction :=
        if 0 < ch2.speed then .forward
        else if ch2.speed < 0 then .reverse
        else if jogging && decide (ch.jogAcc < 0) then .reverse
        else .forward
      let r := resolve t lo hi (h + ch2.speed * t.multiple) ch2.speed travel
      let s3 := s2.setChannel c { ch2 with head := r.head }
      let s4 := match r.snap with
        | some (a, b) => s3.raise (.holeSkipped c x a b)
        | none => s3
      s4.boundEvent c n lo r.reached
  | _, _ => s2

/-- The states in which sub-steps are run (R51). -/
def stepsIn (st : TransportState) : Bool :=
  match st with
  | .cued | .playing | .shuttle | .jog => true
  | _ => false

/-- k sub-steps; when one leaves the channel in IDLE, LIVE or FOLLOWING the remaining ones are not run (R51). -/
def runSubSteps (c : ChannelId) (n : Nat) : Nat → Bool → State → State
  | 0, _, s => s
  | k + 1, first, s =>
    if stepsIn (s.channel c).state then runSubSteps c n k false (s.subStep c n first) else s

/-! ## Placement and settling (R58 to R60) -/

/-- The head of a channel in LIVE placed D_live behind the record edge (R58). -/
def State.placeLive (s : State) (c : ChannelId) : State :=
  let ch := s.channel c
  match s.sourceTrain ch.source with
  | some x =>
    match (s.train x).liveHead ch.liveDelay with
    | some h => s.setChannel c { ch with head := h }
    | none => s
  | none => s

/-- A channel's head mapped from its source train onto train x, or why it cannot be; an IDLE channel has none
(R157, R159). That the mapping is R41's for a pushed head, and for one in a hole of train x itself, is the model's choice
(log 39). -/
def State.mapFrom (s : State) (c : ChannelId) (x : TrainId) : Except HoldReason Nat :=
  let ch := s.channel c
  if ch.state = .idle then .error .leaderIdle
  else match s.sourceTrain ch.source with
    | none => .error .notFound
    | some y =>
      match s.mapHead y x ch.head with
      | .found h => .ok h
      | .untimed => .error .untimed
      | .notFound => .error .notFound

/-- The head of a channel in FOLLOWING placed from its leader's head; otherwise it holds, with EDGE/FOLLOW_LOST when
it was TRACKING (R59, R159; for a leader's head just pushed, or in a hole, log 39). -/
def State.placeFollower (s : State) (c : ChannelId) : State :=
  let ch := s.channel c
  match leaderOf c, s.sourceTrain ch.source with
  | some l, some x =>
    match s.mapFrom l x with
    | .ok h => s.setChannel c { ch with head := h, role := .follower .tracking }
    | .error reason =>
      let s1 := s.setChannel c { ch with role := .follower .holding }
      if ch.role = .follower .tracking then s1.raise (.followLost c l x (ch.head / Config.sfu) reason) else s1
  | _, _ => s

/-- Placement of a request that advances (R51, step 2). -/
def State.place (s : State) (c : ChannelId) : State :=
  match (s.channel c).state with
  | .live => s.placeLive c
  | .following => s.placeFollower c
  | _ => s

/-- A settled head, and the serials of its snap: with C at 0 a snap goes forward, and backward when the forward snap
finds no retained frame before hi (R60, log 19). -/
def settledHead (t : Train) (lo hi head : Nat) (speed : Int) : Nat × Option (Nat × Nat) :=
  let h := clampHead lo hi head
  if inHole t lo hi h then
    let dest :=
      if speed < 0 then snapBackward t lo h
      else if 0 < speed then (snapForward t hi h).1
      else if (snapForward t hi h).2 then (snapForward t hi h).1
      else snapBackward t lo h
    (dest, snapped h dest)
  else (h, none)

/-- Settling of a channel that is not IDLE (R60, log 22). -/
def State.settle (s : State) (c : ChannelId) : State :=
  let ch := s.channel c
  if ch.state = .idle then s
  else match s.sourceTrain ch.source, s.bounds ch.source with
    | some x, some (lo, hi) =>
      let r := settledHead (s.train x) lo hi ch.head ch.speed
      let s1 := s.setChannel c { ch with head := r.1 }
      match r.2 with
      | some (a, b) => s1.raise (.holeSkipped c x a b)
      | none => s1
    | _, _ => s

/-! ## The present (R61 to R65) -/

/-- The blend weight of a fraction (R61). -/
def blendWeight (f : Nat) : Nat := f * 256 / Config.sfu

/-- The serial a present shows with blend off (R62). -/
def roundedSerial (t : Train) (hi head : Nat) : Nat :=
  let candidate := (head + 600) / Config.sfu
  if candidate ≤ hi ∧ t.retained candidate then candidate else head / Config.sfu

/-- The primary serial, the secondary serial and W of a settled head (R61, R62). -/
def framesOf (t : Train) (hi head : Nat) (blend : Bool) : Nat × Option Nat × Nat :=
  if blend then
    let p := head / Config.sfu
    let w := blendWeight (head % Config.sfu)
    if 1 ≤ w ∧ t.retained (p + 1) ∧ p + 1 ≤ hi then (p, some (p + 1), w) else (p, none, 0)
  else (roundedSerial t hi head, none, 0)

/-- The C a FRAME present carries: 1200 in LIVE, the leader's speed or 0 in FOLLOWING (R63, R160). -/
def State.shownSpeed (s : State) (c : ChannelId) : Int :=
  let ch := s.channel c
  match ch.state with
  | .live => 1200
  | .following =>
    match leaderOf c with
    | some l =>
      if ch.role = .follower .tracking then
        (if (s.channel l).state = .live then 1200 else (s.channel l).speed)
      else 0
    | none => 0
  | _ => ch.speed

/-- What a FRAME present shows, from the settled head (R63). -/
def State.frameShown (s : State) (c : ChannelId) : Option FrameShown :=
  let ch := s.channel c
  match s.sourceTrain ch.source, s.bounds ch.source with
  | some x, some (_, hi) =>
    let t := s.train x
    let f := framesOf t hi ch.head ch.blend
    (t.pageOf f.1).map fun page =>
      { primary := page, secondary := f.2.1.bind t.pageOf, weight := f.2.2, train := x, serial := f.1,
        timecode := s.fieldAt x f.1 }
  | _, _ => none

/-- The present of a served request: FRAME from the settled head, BLACK in IDLE (R63, R64). -/
def State.formPresent (s : State) (c : ChannelId) (n : Nat) : Present :=
  let ch := s.channel c
  if ch.state = .idle then { channel := c, n := n, frame := none, state := .idle, speed := 0 }
  else { channel := c, n := n, frame := s.frameShown c, state := ch.state, speed := s.shownSpeed c }

/-- The echo readied on the bound panel after a present (R112). -/
def State.readyEcho (s : State) (c : ChannelId) (p : Present) : State :=
  match s.boundPanel c with
  | some b =>
    let r := s.panel b
    let clip := match (s.channel c).source with
      | .clip id _ => some id
      | _ => none
    let e : Echo := { channel := c, state := p.state, speed := p.speed, timecode := p.frame.bind (·.timecode),
                      clip := clip, arm := r.arm }
    s.setPanel b { r with pendingEcho := some e }
  | none => s

/-- The present sent, kept as the last present, counted to the open session, and offered to the bound panel (R65,
R174, R112). -/
def State.keepPresent (s : State) (c : ChannelId) (n k : Nat) (tag : Byte) : State :=
  let p := s.formPresent c n
  let s1 : State := { s with playout := s.playout.form tag p }
  let s2 := s1.setChannel c { s1.channel c with lastPresent := some p }
  let s3 := if 1 ≤ k then s2.countPresent c n else s2
  s3.readyEcho c p

/-! ## Serving a request (R49 to R51) -/

/-- The advance count k, and whether the request resynchronises (R50, log 30). -/
def advanceCount (last : Option Nat) (n : Nat) : Nat × Bool :=
  match last with
  | none => (1, false)
  | some m =>
    if n = m then (0, false)
    else if 8 < elapsed n m then (1, true)
    else (elapsed n m, false)

/-- A request served for a channel, with its count n (R50, R51). -/
def State.serve (s : State) (c : ChannelId) (n : Nat) (tag : Byte) : State :=
  let k := (advanceCount (s.channel c).lastServed n).1
  let gap := (advanceCount (s.channel c).lastServed n).2
  let s1 := s.setChannel c { s.channel c with lastServed := some n }
  let s2 := if gap then s1.recordFault .playoutGap (some c.val) else s1
  let s3 := runSubSteps c n k true s2
  let s4 := if 1 ≤ k then s3.place c else s3
  (s4.settle c).keepPresent c n k tag

/-- FRAME_REQUEST; a channel field that names none of A to F is not answered (R49). -/
def State.frameRequest (tag channel : Byte) (n : Word) (s : State) : State :=
  match channelOf channel with
  | some c => s.serve c n.toNat tag
  | none => s

/-- FRAME_REQUEST. -/
def execFrameRequest (tag channel : Byte) (n : Word) (s : State) : Result :=
  powered s (State.frameRequest tag channel n)

end Sys2Proof.Machine
end

