-- ==== Sys2Proof/Machine/Transport.lean ====
section
/-! DEFINITION. Transport control (spec 04, R71 to R80) and the channel settings (R92, R93). Each transport command is
first an operation on a channel with the cause its report carries, so that a key can share it (R105). -/

namespace Sys2Proof.Machine

/-- The channel check of a command (R71, step 1). -/
def onChannel (b : Byte) (f : ChannelId → State → Verdict) (s : State) : Verdict :=
  match channelOf b with
  | none => .refuse .badValue
  | some c => f c s

/-- The gang check of a transport command (R71, step 3). -/
def ungangedOn (c : ChannelId) (f : State → Verdict) (s : State) : Verdict :=
  if (s.channel c).state = .following then .refuse .ganged else f s

/-- An accepted transport command is answered with the transport summary (R71). -/
def State.transportDone (s : State) (c : ChannelId) : Verdict := .done s (.transport (s.transport c))

/-! ## Sources (R72, R74, R75) -/

/-- An accepted LOAD_CLIP (R72, steps 1 to 6). -/
def State.loadClip (s : State) (c : ChannelId) (id index : Nat) (a : Angle) : State :=
  let s1 := s.cutProgramme c .cutShort
  let loaded : Channel := { s1.channel c with
    source := .clip id index, head := a.inSerial * Config.sfu, bounce := none, edgeHold := false }
  (s1.commit c .command (loaded.enter .cued)).openSession c

/-- LOAD_CLIP on a channel: the angle named, or the primary angle (R72). -/
def loadClipOn (c : ChannelId) (id : Nat) (angle : Option Nat) (s : State) : Verdict :=
  match s.clipOf id with
  | none => .refuse .notFound
  | some k =>
    match s.presentAngle id (angle.getD k.primary) with
    | none => .refuse .notFound
    | some a => (s.loadClip c id (angle.getD k.primary) a).transportDone c

/-- The head SELECT_TRAIN gives a channel that is not in LIVE: the current head mapped across, or the record edge
when the channel is IDLE or the mapping fails (R74, step 2). -/
def State.selectedHead (s : State) (c : ChannelId) (x : TrainId) (recordEdge : Nat) : Nat :=
  match s.mapFrom c x with
  | .ok h => h
  | .error _ => recordEdge * Config.sfu

/-- An accepted SELECT_TRAIN (R74). -/
def State.selectTrain (s : State) (c : ChannelId) (x : TrainId) (recordEdge : Nat) : State :=
  let s1 := s.cutProgramme c .cutShort
  let ch := s1.channel c
  if ch.state = .live then
    s1.commit c .command { ch with
      source := .train x, head := ((s1.train x).liveHead ch.liveDelay).getD ch.head, bounce := none,
      edgeHold := false }
  else
    let selected : Channel := { ch with
      source := .train x, head := s1.selectedHead c x recordEdge, bounce := none, edgeHold := false }
    s1.commit c .command (selected.enter .cued)

/-- SELECT_TRAIN on a channel (R74). -/
def selectTrainOn (c : ChannelId) (x : TrainId) (s : State) : Verdict :=
  match (s.train x).recordEdge with
  | none => .refuse .noSource
  | some e => (s.selectTrain c x e).transportDone c

/-- UNLOAD on a channel (R75). -/
def unloadOn (c : ChannelId) (s : State) : Verdict :=
  if (s.channel c).state = .idle then s.transportDone c
  else (s.unloadChannel c .command .cutShort).transportDone c

/-! ## Speed and position (R76 to R79) -/

/-- The speed of the entry a channel in queue play is playing (R76, case 2). -/
def State.queueSpeed (s : State) (c : ChannelId) : Option Int :=
  if (s.queue c).playing then (s.queue c).entries.head?.map s.entrySpeed else none

/-- The speed a bounce context gives: Vf on a forward leg, −Vr on a reverse leg (R76, case 3). -/
def State.bounceSpeed (s : State) (c : ChannelId) : Option Int :=
  match (s.channel c).source, (s.channel c).bounce with
  | .clip id i, some b =>
    match b.direction with
    | .forward => some (s.bounceSpeeds (.clip id i)).1
    | .reverse => some (-(s.bounceSpeeds (.clip id i)).2)
  | _, _ => none

/-- The play speed of the clip a channel plays (R76, case 4). -/
def State.clipSpeed (s : State) (c : ChannelId) : Option Int :=
  match (s.channel c).source with
  | .clip id _ => (s.clipOf id).bind (·.speed)
  | _ => none

/-- The target PLAY chooses: the first case of R76 that applies. -/
def State.playTarget (s : State) (c : ChannelId) (given : Option Int) : Int :=
  match given with
  | some v => v
  | none =>
    match s.queueSpeed c with
    | some v => v
    | none =>
      match s.bounceSpeed c with
      | some v => v
      | none => (s.clipSpeed c).getD 1200

/-- An accepted PLAY (R76). -/
def State.play (s : State) (c : ChannelId) (given : Option Int) (cause : Cause) : State :=
  let ch := s.channel c
  let v := s.playTarget c given
  if ch.state = .playing then s.setChannel c { ch with target := v }
  else
    let playing : Channel := { ch with
      target := v, speed := if ch.state = .live then 1200 else ch.speed, edgeHold := false
      bounce := s.freshBounce ch.source v }
    (s.commit c cause (playing.enter .playing)).openIfNone c

/-- PLAY on a channel (R76). -/
def playOn (c : ChannelId) (given : Option Int) (cause : Cause) (s : State) : Verdict :=
  if (s.channel c).state = .idle then .refuse .noSource else (s.play c given cause).transportDone c

/-- SET_SPEED on a channel (R77). -/
def setSpeedOn (c : ChannelId) (v : Int) (s : State) : Verdict :=
  match (s.channel c).state with
  | .idle => .refuse .noSource
  | .playing => (s.setChannel c { s.channel c with target := v }).transportDone c
  | .shuttle => (s.setChannel c { s.channel c with target := v }).transportDone c
  | _ => .refuse .busy

/-- An accepted PAUSE of a channel that is not CUED (R78). -/
def State.pause (s : State) (c : ChannelId) (cause : Cause) : State :=
  let paused : Channel := { s.channel c with bounce := none, edgeHold := false }
  s.commit c cause (paused.enter .cued)

/-- PAUSE on a channel (R78). -/
def pauseOn (c : ChannelId) (cause : Cause) (s : State) : Verdict :=
  match (s.channel c).state with
  | .idle => .refuse .noSource
  | .cued => s.transportDone c
  | _ => (s.pause c cause).transportDone c

/-- A serial clamped to the bounds of the source (R79). -/
def clampSerial (lo hi serial : Nat) : Nat := if serial < lo then lo else if hi < serial then hi else serial

/-- A GOTO to a target serial, and a cue (R79, R106): clamped to the bounds; in LIVE the state becomes CUED. -/
def State.gotoSerial (s : State) (c : ChannelId) (serial : Nat) (cause : Cause) : State :=
  let ch := s.channel c
  match s.bounds ch.source with
  | some (lo, hi) =>
    let moved : Channel := { ch with head := clampSerial lo hi serial * Config.sfu, edgeHold := false }
    s.commit c cause (if ch.state = .live then moved.enter .cued else moved)
  | none => s

/-- GOTO by timecode: the phase against M of the source train, then the lookup of R40 (R79, checks 2 and 3). -/
def gotoTimecode (c : ChannelId) (f : TimecodeField) (s : State) : Verdict :=
  match s.sourceTrain (s.channel c).source with
  | none => .refuse .noSource
  | some x =>
    if (s.train x).multiple ≤ f.phase.toNat then .refuse .badValue
    else match s.serialAt x (s.timebase.number (labelOf f)) f.phase.toNat with
      | none => .refuse .notFound
      | some serial => (s.gotoSerial c serial .command).transportDone c

/-! ## Live (R80) -/

/-- An accepted LIVE on a channel whose source train is x (R80). -/
def State.goLive (s : State) (c : ChannelId) (x : TrainId) (delay : Option Nat) (cause : Cause) : State :=
  let s1 := s.cutProgramme c .cutShort
  let ch := s1.channel c
  let d := delay.getD ch.liveDelay
  let live : Channel := { ch with
    source := .train x, liveDelay := d, bounce := none, edgeHold := false
    head := ((s1.train x).liveHead d).getD ch.head }
  s1.commit c cause (live.enter .live)

/-- LIVE on a channel (R80). -/
def liveOn (c : ChannelId) (delay : Option Nat) (cause : Cause) (s : State) : Verdict :=
  if (s.channel c).state = .idle then .refuse .noSource
  else match s.sourceTrain (s.channel c).source with
    | none => .refuse .noSource
    | some x => (s.goLive c x delay cause).transportDone c

/-! ## Commands -/

/-- LOAD_CLIP (R71, R72). -/
def loadClip (a : LoadClipArgs) (s : State) : Verdict :=
  onChannel a.channel (fun c s =>
    match clipIdOf a.clip, optAngleIndexOf a.angle with
    | some id, some angle => ungangedOn c (loadClipOn c id angle) s
    | _, _ => .refuse .badValue) s

/-- SELECT_TRAIN (R71, R74). -/
def selectTrain (a : ChannelTrainArgs) (s : State) : Verdict :=
  onChannel a.channel (fun c s =>
    match trainOf a.train with
    | some x => ungangedOn c (selectTrainOn c x) s
    | none => .refuse .badValue) s

/-- UNLOAD (R71, R75). -/
def unload (b : Byte) (s : State) : Verdict := onChannel b (fun c => ungangedOn c (unloadOn c)) s

/-- PLAY (R71, R76). -/
def play (a : PlayArgs) (s : State) : Verdict :=
  onChannel a.channel (fun c => ungangedOn c (playOn c (a.speed.map speedOf) .command)) s

/-- SET_SPEED (R71, R77). -/
def setSpeed (a : ChannelWordArgs) (s : State) : Verdict :=
  onChannel a.channel (fun c => ungangedOn c (setSpeedOn c (speedOf a.value))) s

/-- PAUSE (R71, R78). -/
def pause (b : Byte) (s : State) : Verdict := onChannel b (fun c => ungangedOn c (pauseOn c .command)) s

/-- GOTO on a channel once its values are checked (R79). -/
def gotoOn (c : ChannelId) (serial : Option Word) (timecode : Option TimecodeField) (s : State) : Verdict :=
  if (s.channel c).state = .idle then .refuse .noSource
  else match serial, timecode with
    | some w, _ => (s.gotoSerial c w.toNat .command).transportDone c
    | none, some f => gotoTimecode c f s
    | none, none => .refuse .badValue

/-- GOTO (R71, R79): exactly one target form, and a valid label. -/
def goto (a : GotoArgs) (s : State) : Verdict :=
  onChannel a.channel (fun c s =>
    let valid := match a.serial, a.timecode with
      | some _, none => true
      | none, some f => s.timebase.labelValid (labelOf f)
      | _, _ => false
    if valid then ungangedOn c (gotoOn c a.serial a.timecode) s else .refuse .badValue) s

/-- LIVE (R71, R80). -/
def live (a : LiveArgs) (s : State) : Verdict :=
  onChannel a.channel (fun c s =>
    match a.delay with
    | none => ungangedOn c (liveOn c none .command) s
    | some w =>
      if 1000 < w.toNat then .refuse .badValue else ungangedOn c (liveOn c (some w.toNat) .command) s) s

/-! ## Settings (R92, R93) -/

/-- A field of the channel record changed, nothing else (R92). -/
def State.setting (s : State) (c : ChannelId) (f : Channel → Channel) : Verdict :=
  .done (s.setChannel c (f (s.channel c))) .empty

/-- SET_ACCEL (R92). -/
def setAccel (a : ChannelWordArgs) (s : State) : Verdict :=
  onChannel a.channel (fun c s =>
    if 1 ≤ a.value.toInt ∧ a.value.toInt ≤ Config.maxSpeed then
      s.setting c fun ch => { ch with accel := a.value.toInt }
    else .refuse .badValue) s

/-- SET_BLEND (R92). -/
def setBlend (a : SetBlendArgs) (s : State) : Verdict :=
  onChannel a.channel (fun c s => s.setting c fun ch => { ch with blend := a.blend }) s

/-- SET_END_ACTION (R92). -/
def setEndAction (a : SetEndActionArgs) (s : State) : Verdict :=
  onChannel a.channel (fun c s => s.setting c fun ch => { ch with endAction := a.action }) s

/-- SET_TARGET_BANK (R92). -/
def setTargetBank (a : ChannelByteArgs) (s : State) : Verdict :=
  onChannel a.channel (fun c s =>
    match bankOf a.value with
    | some b => s.setting c fun ch => { ch with targetBank := b }
    | none => .refuse .badValue) s

/-- The trains of a list, when every entry names one. -/
def trainsOf : List Byte → Option (List TrainId)
  | [] => some []
  | b :: rest =>
    match trainOf b, trainsOf rest with
    | some x, some xs => some (x :: xs)
    | _, _ => none

/-- SET_ANGLE_GROUP (R93). -/
def setAngleGroup (a : AngleGroupArgs) (s : State) : Verdict :=
  onChannel a.channel (fun c s =>
    match trainsOf a.trains with
    | some xs =>
      if xs.length ≤ 8 ∧ xs.Nodup then s.setting c fun ch => { ch with angleGroup := xs } else .refuse .badValue
    | none => .refuse .badValue) s

/-! ## Meanings -/

/-- LOAD_CLIP. -/
def execLoadClip (tag : Byte) (a : Sent LoadClipArgs) (s : State) : Result :=
  command (.loadClip tag a) 0x20 tag a loadClip s

/-- SELECT_TRAIN. -/
def execSelectTrain (tag : Byte) (a : Sent ChannelTrainArgs) (s : State) : Result :=
  command (.selectTrain tag a) 0x21 tag a selectTrain s

/-- UNLOAD. -/
def execUnload (tag : Byte) (a : Sent Byte) (s : State) : Result := command (.unload tag a) 0x22 tag a unload s

/-- PLAY. -/
def execPlay (tag : Byte) (a : Sent PlayArgs) (s : State) : Result := command (.play tag a) 0x23 tag a play s

/-- SET_SPEED. -/
def execSetSpeed (tag : Byte) (a : Sent ChannelWordArgs) (s : State) : Result :=
  command (.setSpeed tag a) 0x24 tag a setSpeed s

/-- PAUSE. -/
def execPause (tag : Byte) (a : Sent Byte) (s : State) : Result := command (.pause tag a) 0x25 tag a pause s

/-- GOTO. -/
def execGoto (tag : Byte) (a : Sent GotoArgs) (s : State) : Result := command (.goto tag a) 0x26 tag a goto s

/-- LIVE. -/
def execLive (tag : Byte) (a : Sent LiveArgs) (s : State) : Result := command (.live tag a) 0x27 tag a live s

/-- SET_ACCEL. -/
def execSetAccel (tag : Byte) (a : Sent ChannelWordArgs) (s : State) : Result :=
  command (.setAccel tag a) 0x28 tag a setAccel s

/-- SET_BLEND. -/
def execSetBlend (tag : Byte) (a : Sent SetBlendArgs) (s : State) : Result :=
  command (.setBlend tag a) 0x29 tag a setBlend s

/-- SET_END_ACTION. -/
def execSetEndAction (tag : Byte) (a : Sent SetEndActionArgs) (s : State) : Result :=
  command (.setEndAction tag a) 0x2A tag a setEndAction s

/-- SET_TARGET_BANK. -/
def execSetTargetBank (tag : Byte) (a : Sent ChannelByteArgs) (s : State) : Result :=
  command (.setTargetBank tag a) 0x2B tag a setTargetBank s

/-- SET_ANGLE_GROUP. -/
def execSetAngleGroup (tag : Byte) (a : Sent AngleGroupArgs) (s : State) : Result :=
  command (.setAngleGroup tag a) 0x2C tag a setAngleGroup s

end Sys2Proof.Machine
end

