-- ==== Sys2Proof/Machine/Angles.lean ====
section
/-! DEFINITION. Angles and ganged channels (spec 08): ANGLE, ANGLE_NEXT on a clip and on an angle group, GANG and
UNGANG. -/

namespace Sys2Proof.Machine

/-! ## Switching angle on a clip (R150 to R152) -/

/-- The head's frame is untimed on the source train (R152). -/
def State.headUntimed (s : State) (x : TrainId) (head : Nat) : Bool :=
  match s.timecodeAt x (head / Config.sfu) with
  | .untimed => true
  | _ => false

/-- The mapping of R150, step 6: the head mapped from train x onto an angle, within the angle's in-to-out range. -/
def State.angleHead (s : State) (x : TrainId) (head : Nat) (a : Angle) : Except Status Nat :=
  match s.mapHead x a.train head with
  | .untimed => .error .untimed
  | .notFound => .error .notFound
  | .found h =>
    if a.inSerial ≤ h / Config.sfu ∧ h / Config.sfu ≤ a.outSerial then .ok h else .error .notFound

/-- The train an open session records is replaced (R151, R174). -/
def State.retrainSession (s : State) (c : ChannelId) (x : TrainId) : State :=
  s.setQueue c { s.queue c with session := (s.queue c).session.map fun r => { r with train := x } }

/-- An accepted switch to an angle of the clip (R151). -/
def State.switchAngle (s : State) (c : ChannelId) (id index : Nat) (a : Angle) (head : Nat) (cause : Cause) : State :=
  (s.retrainSession c a.train).commit c cause
    { s.channel c with source := .clip id index, head := head, edgeHold := false }

/-- ANGLE on a channel, from the checks of R150, step 3, on. -/
def angleOn (c : ChannelId) (index : Nat) (s : State) : Verdict :=
  if (s.channel c).state = .idle then .refuse .noSource
  else match (s.channel c).source with
  | .noSource => .refuse .noSource
  | .train _ => .refuse .notFound
  | .clip id current =>
    match s.angleOf id index, s.angleOf id current with
    | some a, some old =>
      if !a.present then .refuse .notFound
      else if index = current then .done s (.angle (s.transport c) index a.train)
      else match s.angleHead old.train (s.channel c).head a with
        | .error st => .refuse st
        | .ok h =>
          let s1 := s.switchAngle c id index a h .command
          .done s1 (.angle (s1.transport c) index a.train)
    | _, _ => .refuse .notFound

/-- The indices ANGLE_NEXT tries: those after the current one, wrapping, without it (R152). -/
def anglesAfter (current count : Nat) : List Nat := (List.range (count - 1)).map fun k => (current + 1 + k) % count

/-- One angle tried by ANGLE_NEXT: its index, entry and mapped head, or `none` when it is passed over (R152). -/
def State.tryAngle (s : State) (id : Nat) (x : TrainId) (head index : Nat) : Option (Nat × Angle × Nat) :=
  match s.angleOf id index with
  | some a =>
    if a.present then
      match s.angleHead x head a with
      | .ok h => some (index, a, h)
      | .error _ => none
    else none
  | none => none

/-- The first item of a list not passed over, with the number passed over before it. -/
def firstTaken {α β : Type} (f : α → Option β) : List α → Nat → Option (β × Nat)
  | [], _ => none
  | a :: rest, k =>
    match f a with
    | some b => some (b, k)
    | none => firstTaken f rest (k + 1)

/-- The status of an ANGLE_NEXT that passes over everything it tries (R152, R153): UNTIMED when the head's frame is
untimed; NOT_FOUND otherwise, and when there was nothing to try (log 16). -/
def State.nextRefusal {α : Type} (s : State) (x : TrainId) (head : Nat) (tried : List α) : Status :=
  if !tried.isEmpty && s.headUntimed x head then .untimed else .notFound

/-- ANGLE_NEXT on a CLIP source (R152). -/
def angleNextOnClip (c : ChannelId) (id current : Nat) (cause : Cause) (s : State) : Verdict :=
  match s.clipOf id, s.angleOf id current with
  | some k, some old =>
    let head := (s.channel c).head
    let tried := anglesAfter current k.angles.length
    match firstTaken (s.tryAngle id old.train head) tried 0 with
    | some ((index, a, h), passed) =>
      let s1 := s.switchAngle c id index a h cause
      .done s1 (.angleNext (s1.transport c) index a.train passed)
    | none => .refuse (s.nextRefusal old.train head tried)
  | _, _ => .refuse .notFound

/-! ## Switching train on a TRAIN source (R153) -/

/-- The trains ANGLE_NEXT tries: the angle group from the train after the current one, wrapping, without it. -/
def trainsAfter (x : TrainId) (group : List TrainId) : List TrainId :=
  let k := match group.findIdx? (· == x) with
    | some i => i + 1
    | none => 0
  (group.drop k ++ group.take k).filter (· != x)

/-- One train tried by ANGLE_NEXT: its number and the new head, or `none` when it is passed over (R153). -/
def State.tryTrain (s : State) (ch : Channel) (x y : TrainId) : Option (TrainId × Nat) :=
  if (s.train y).hasFrame then
    if ch.state = .live then ((s.train y).liveHead ch.liveDelay).map fun h => (y, h)
    else match s.mapHead x y ch.head with
      | .found h => some (y, h)
      | _ => none
  else none

/-- ANGLE_NEXT on a TRAIN source (R153). -/
def angleNextOnTrain (c : ChannelId) (x : TrainId) (cause : Cause) (s : State) : Verdict :=
  let ch := s.channel c
  let tried := trainsAfter x ch.angleGroup
  match firstTaken (s.tryTrain ch x) tried 0 with
  | some ((y, h), passed) =>
    let s1 := s.commit c cause { ch with source := .train y, head := h, edgeHold := false }
    .done s1 (.trainNext (s1.transport c) y passed)
  | none => .refuse (s.nextRefusal x ch.head tried)

/-- ANGLE_NEXT on a channel, by command or key (R152, R153). -/
def angleNextOn (c : ChannelId) (cause : Cause) (s : State) : Verdict :=
  if (s.channel c).state = .idle then .refuse .noSource
  else match (s.channel c).source with
  | .noSource => .refuse .noSource
  | .clip id current => angleNextOnClip c id current cause s
  | .train x => angleNextOnTrain c x cause s

/-! ## Gangs (R155 to R157, R162) -/

/-- Where a GANG places the follower's head, its follow state, and why it holds (R157, step 2). -/
def State.gangHead (s : State) (leader follower : ChannelId) (x : TrainId) (recordEdge : Nat) :
    Nat × Option HoldReason :=
  match s.mapFrom leader x with
  | .ok h => (h, none)
  | .error reason =>
    match s.mapFrom follower x with
    | .ok h => (h, some reason)
    | .error _ => (recordEdge * Config.sfu, some reason)

/-- The follow state a GANG leaves (R157, step 2). -/
def followOf : Option HoldReason → FollowState
  | none => .tracking
  | some _ => .holding

/-- An accepted GANG (R157). -/
def State.gang (s : State) (leader follower : ChannelId) (x : TrainId) (recordEdge : Nat) : State :=
  let s1 := s.cutProgramme follower .cutShort
  let g := s1.gangHead leader follower x recordEdge
  let joined : Channel := { s1.channel follower with
    source := .train x, head := g.1, bounce := none, edgeHold := false, jogAcc := 0
    role := .follower (followOf g.2) }
  let s2 := (s1.setRole leader .leader).commit follower .gang (joined.enter .following)
  match g.2 with
  | some reason => s2.raise (.followLost follower leader x (g.1 / Config.sfu) reason)
  | none => s2

/-- The follow state a channel's role carries. -/
def GangRole.follow : GangRole → FollowState
  | .follower f => f
  | _ => .holding

/-- GANG on a pair (R156, R157). -/
def gangOn (leader follower : ChannelId) (x : TrainId) (s : State) : Verdict :=
  match (s.train x).recordEdge with
  | none => .refuse .noSource
  | some e =>
    let s1 := s.gang leader follower x e
    .done s1 (.gang (s1.transport follower) (s1.channel follower).role.follow)

/-- The members of a channel's pair: leader, follower (R155). -/
def pairOf (c : ChannelId) : ChannelId × ChannelId :=
  match c with
  | 0 => (0, 1)
  | 1 => (0, 1)
  | 2 => (2, 3)
  | 3 => (2, 3)
  | 4 => (4, 5)
  | 5 => (4, 5)

/-- The pair is ganged (R155). -/
def State.ganged (s : State) (leader follower : ChannelId) : Bool :=
  match (s.channel leader).role, (s.channel follower).role with
  | .leader, .follower _ => true
  | _, _ => false

/-- UNGANG of a ganged pair (R162). -/
def State.ungang (s : State) (leader follower : ChannelId) : State :=
  let left : Channel := { s.channel follower with role := .noGang }
  (s.setRole leader .noGang).commit follower .gang (left.enter .cued)

/-! ## Commands -/

/-- ANGLE (R150). -/
def angle (a : ChannelByteArgs) (s : State) : Verdict :=
  onChannel a.channel (fun c s =>
    match angleIndexOf a.value with
    | some index => ungangedOn c (angleOn c index) s
    | none => .refuse .badValue) s

/-- ANGLE_NEXT (R152, R153). -/
def angleNext (b : Byte) (s : State) : Verdict := onChannel b (fun c => ungangedOn c (angleNextOn c .command)) s

/-- GANG (R156). -/
def gang (a : ChannelTrainArgs) (s : State) : Verdict :=
  onChannel a.channel (fun c s =>
    match trainOf a.train with
    | none => .refuse .badValue
    | some x =>
      match followerOf c with
      | none => .refuse .ganged
      | some f => gangOn c f x s) s

/-- UNGANG (R162). -/
def ungang (b : Byte) (s : State) : Verdict :=
  onChannel b (fun c s =>
    let p := pairOf c
    let s1 := if s.ganged p.1 p.2 then s.ungang p.1 p.2 else s
    .done s1 (.transport (s1.transport p.2))) s

/-! ## Meanings -/

/-- ANGLE. -/
def execAngle (tag : Byte) (a : Sent ChannelByteArgs) (s : State) : Result := command (.angle tag a) 0x30 tag a angle s

/-- ANGLE_NEXT. -/
def execAngleNext (tag : Byte) (a : Sent Byte) (s : State) : Result :=
  command (.angleNext tag a) 0x31 tag a angleNext s

/-- GANG. -/
def execGang (tag : Byte) (a : Sent ChannelTrainArgs) (s : State) : Result := command (.gang tag a) 0x32 tag a gang s

/-- UNGANG. -/
def execUngang (tag : Byte) (a : Sent Byte) (s : State) : Result := command (.ungang tag a) 0x33 tag a ungang s

end Sys2Proof.Machine
end

