-- ==== Sys2Proof/Machine/Marks.lean ====
section
/-! DEFINITION. Marks and clip capture (spec 06, R115 to R128): MARK_IN, MARK_OUT, CLEAR_MARKS and TAKE. -/

namespace Sys2Proof.Machine

/-! ## Marks (R115 to R118) -/

/-- The mark MARK_IN or MARK_OUT would take from a channel's last present, or the status that refuses it (R116,
R117, log 18). -/
def State.markOf (s : State) (c : ChannelId) : Except Status Mark :=
  match (s.channel c).lastPresent.bind (·.frame) with
  | none => .error .noSource
  | some f =>
    match f.timecode with
    | none => .error .untimed
    | some l => .ok { train := f.train, serial := f.serial, tcnum := s.timebase.number l.label, phase := l.phase }

/-- The reply to a mark command: the mark and whether the other is held (R116). -/
def State.markReply (s : State) (m : Mark) (other : Option Mark) : ReplyBody :=
  .mark m.train m.serial (s.timebase.fieldReduced { tcnum := m.tcnum, phase := m.phase }) other.isSome

/-- MARK_IN on a channel, by command or key (R116). -/
def markInOn (c : ChannelId) (s : State) : Verdict :=
  match s.markOf c with
  | .error st => .refuse st
  | .ok m =>
    .done (s.setChannel c { s.channel c with markIn := some m }) (s.markReply m (s.channel c).markOut)

/-- MARK_OUT on a channel, by command or key (R116). -/
def markOutOn (c : ChannelId) (s : State) : Verdict :=
  match s.markOf c with
  | .error st => .refuse st
  | .ok m =>
    .done (s.setChannel c { s.channel c with markOut := some m }) (s.markReply m (s.channel c).markIn)

/-- CLEAR_MARKS on a channel (R118). -/
def clearMarksOn (c : ChannelId) (s : State) : Verdict :=
  let ch := s.channel c
  .done (s.setChannel c { ch with markIn := none, markOut := none })
    (.marksCleared ch.markIn.isSome ch.markOut.isSome)

/-! ## TAKE (R120 to R128) -/

/-- The out mark of a TAKE: the pending one, or the substitute formed from the last present (R121). -/
def State.takeOut (s : State) (c : ChannelId) : Except Status Mark :=
  match (s.channel c).markOut with
  | some m => .ok m
  | none => s.markOf c

/-- The instant of a mark (R115). -/
def State.instantOf (s : State) (m : Mark) : Nat := instant (s.train m.train).multiple m.tcnum m.phase

/-- The ends of a take in order: in end, out end (R122). A number at or above D is not reduced for it: the model's choice
(log 18). -/
def State.takeEnds (s : State) (mi mo : Mark) : Mark × Mark :=
  if s.instantOf mi ≤ s.instantOf mo then (mi, mo)
  else if s.instantOf mi - s.instantOf mo < 12 * s.timebase.day then (mo, mi)
  else (mi, mo)

/-- The channel's train for a TAKE (R123). -/
def State.takeTrain (s : State) (c : ChannelId) (inEnd : Mark) : TrainId :=
  (s.sourceTrain (s.channel c).source).getD inEnd.train

/-- The candidate trains: the angle group, or the channel's train alone (R123). -/
def State.candidates (s : State) (c : ChannelId) (own : TrainId) : List TrainId :=
  if (s.channel c).angleGroup.isEmpty then [own] else (s.channel c).angleGroup

/-- The phase an in end takes on a train of multiple mx: rounded down (R124). -/
def inPhase (phase mx m : Nat) : Nat := phase * mx / m

/-- The phase an out end takes on a train of multiple mx: rounded up, less 1 (R124, Table 6-1). -/
def outPhase (phase mx m : Nat) : Nat := ((phase + 1) * mx + m - 1) / m - 1

/-- An end of the take on a train: its own serial while retained, else the lookup of R40 with the phase given
(R124). A phase at or above the train's multiple, which only a mark from before a CONFIGURE_TRAIN of its train can
give, goes to the lookup as it is (log 36), and so does a number at or above D, from a label of before a TIMEBASE (log
18). -/
def State.endOn (s : State) (x : TrainId) (e : Mark) (phase : Nat) : Option Nat :=
  if e.train = x then (if (s.train x).retained e.serial then some e.serial else none)
  else s.serialAt x e.tcnum phase

/-- The angle a candidate train yields, on the chain and anchors as they stand when the TAKE is carried out (R124, R125;
R129's two orders, log 35). -/
def State.angleFor (s : State) (inEnd outEnd : Mark) (x : TrainId) : Option Angle :=
  let t := s.train x
  let qin := inPhase inEnd.phase t.multiple (s.train inEnd.train).multiple
  let qout := outPhase outEnd.phase t.multiple (s.train outEnd.train).multiple
  match s.endOn x inEnd qin, s.endOn x outEnd qout with
  | some a, some b =>
    if a ≤ b then
      some { train := x, inSerial := a, outSerial := b, present := true, holed := t.holed a b, trimmed := false }
    else none
  | _, _ => none

/-- The lowest id of a bank that no clip holds (R127). -/
def State.freeId (s : State) (bank : Fin 16) : Option Nat :=
  ((List.range 64).map (64 * bank.val + ·)).find? fun id => (s.clipOf id).isNone

/-- The primary angle's index: the angle on the channel's train, else 0 (R126). -/
def primaryOf (own : TrainId) (angles : List Angle) : Nat := (angles.findIdx? fun a => a.train == own).getD 0

/-- A clip put into the table, which is kept in ascending id order. -/
def insertClip (k : Clip) : List Clip → List Clip
  | [] => [k]
  | d :: rest => if k.id < d.id then k :: d :: rest else d :: insertClip k rest

/-- The record a TAKE commits (R128, step 1). -/
def newClip (id primary : Nat) (angles : List Angle) (inEnd outEnd : Mark) : Clip :=
  { id := id, state := clipStateOf angles, lock := .unlocked, primary := primary, angles := angles,
    inTime := { tcnum := inEnd.tcnum, phase := inEnd.phase },
    outTime := { tcnum := outEnd.tcnum, phase := outEnd.phase },
    name := none, rating := 0, endAction := none, speed := none, bounce := none }

/-- The commit of a TAKE (R128, log 21). -/
def State.commitTake (s : State) (c : ChannelId) (k : Clip) : Verdict :=
  let s1 : State := { s with clips := insertClip k s.clips }
  let s2 := s1.setChannel c { s1.channel c with markIn := none, markOut := none }
  let primaryTrain := ((k.angles[k.primary]?).map (·.train)).getD 0
  .done (s2.raise (.committed c k.id k.angles.length primaryTrain k.state))
    (.take k.id k.primary (k.angles.map fun a =>
      { train := a.train, inSerial := a.inSerial, outSerial := a.outSerial, holed := a.holed }))

/-- TAKE on a channel, by command or key, from the mark checks on (R120). -/
def takeOn (c : ChannelId) (s : State) : Verdict :=
  match (s.channel c).markIn with
  | none => .refuse .noMark
  | some mi =>
    match s.takeOut c with
    | .error st => .refuse st
    | .ok mo =>
      if 1024 ≤ s.clips.length then .refuse .tableFull
      else match s.freeId (s.channel c).targetBank with
        | none => .refuse .bankFull
        | some id =>
          let ends := s.takeEnds mi mo
          let own := s.takeTrain c ends.1
          let angles := (s.candidates c own).filterMap (s.angleFor ends.1 ends.2)
          if angles.isEmpty then .refuse .notFound
          else s.commitTake c (newClip id (primaryOf own angles) angles ends.1 ends.2)

/-! ## Commands -/

/-- MARK_IN (R116). -/
def markIn (b : Byte) (s : State) : Verdict := onChannel b markInOn s

/-- MARK_OUT (R116). -/
def markOut (b : Byte) (s : State) : Verdict := onChannel b markOutOn s

/-- CLEAR_MARKS (R118). -/
def clearMarks (b : Byte) (s : State) : Verdict := onChannel b clearMarksOn s

/-- TAKE (R120). -/
def take (b : Byte) (s : State) : Verdict := onChannel b takeOn s

/-! ## Meanings -/

/-- MARK_IN. -/
def execMarkIn (tag : Byte) (a : Sent Byte) (s : State) : Result := command (.markIn tag a) 0x40 tag a markIn s

/-- MARK_OUT. -/
def execMarkOut (tag : Byte) (a : Sent Byte) (s : State) : Result := command (.markOut tag a) 0x41 tag a markOut s

/-- CLEAR_MARKS. -/
def execClearMarks (tag : Byte) (a : Sent Byte) (s : State) : Result :=
  command (.clearMarks tag a) 0x42 tag a clearMarks s

/-- TAKE. -/
def execTake (tag : Byte) (a : Sent Byte) (s : State) : Result := command (.take tag a) 0x43 tag a take s

end Sys2Proof.Machine
end

