-- ==== Sys2Proof/Machine/Panels.lean ====
section
/-! DEFINITION. Operator panels (spec 05): the binding table, shuttle curves, lever, jog and key records, and the
dead-man. -/

namespace Sys2Proof.Machine

/-! ## Binding (R97, R98) -/

/-- A panel whose binding is changed (R98). -/
def State.rebind (s : State) (p : PanelId) (b : Option ChannelId) : State :=
  s.setPanel p { s.panel p with binding := b, arm := .disarmed, pendingEcho := none, lastRecord := s.time }

/-- The other panel bound to the channel named (R97, step 1). -/
def State.displacedBy (s : State) (p : PanelId) : Option ChannelId → Option PanelId
  | none => none
  | some c => allPanels.find? fun q => q != p && (s.panel q).binding == some c

/-- BIND of a panel (R97). -/
def bindPanel (p : PanelId) (b : Option ChannelId) (s : State) : Verdict :=
  if (b.map fun c => (s.channel c).state) = some .following then .refuse .ganged
  else
    let displaced := s.displacedBy p b
    let s1 := match displaced with
      | some q => s.rebind q none
      | none => s
    .done (s1.rebind p b) (.bind (s.panel p).binding displaced)

/-- BIND (R97). -/
def bind (a : BindArgs) (s : State) : Verdict :=
  match panelOf a.panel, bindChannelOf a.channel with
  | some p, some b => bindPanel p b s
  | _, _ => .refuse .badValue

/-! ## Shuttle curves and silence times (R99, R107) -/

/-- The panel check of a command. -/
def onPanel (b : Byte) (f : PanelId → State → Verdict) (s : State) : Verdict :=
  match panelOf b with
  | none => .refuse .badValue
  | some p => f p s

/-- SET_CURVE (R99). -/
def setCurve (a : SetCurveArgs) (s : State) : Verdict :=
  onPanel a.panel (fun p s =>
    if curveValid (curvePoints a.points) then
      .done (s.setPanel p { s.panel p with
        curve := a.points.map fun q => { lever := q.lever.toNat, speed := q.speed.toNat } }) .empty
    else .refuse .badCurve) s

/-- QUERY_CURVE (R99). -/
def queryCurve (b : Byte) (s : State) : Verdict := onPanel b (fun p s => .done s (.curve (s.panel p).curve)) s

/-- SET_SILENCE (R107). -/
def setSilence (a : SetSilenceArgs) (s : State) : Verdict :=
  onPanel a.panel (fun p s =>
    if 50 ≤ a.ms.toNat ∧ a.ms.toNat ≤ 2000 then
      .done (s.setPanel p { s.panel p with silence := a.ms.toNat }) .empty
    else .refuse .badValue) s

/-! ## Panel records (R96, R101 to R104) -/

/-- A record taken from a panel sets its last-record time, whatever it is (R96). -/
def State.touchPanel (s : State) (p : PanelId) : State := s.setPanel p { s.panel p with lastRecord := s.time }

/-- A WHEEL outside neutral from an armed panel, with target v (R102). -/
def State.leverOut (s : State) (c : ChannelId) (v : Int) : State :=
  let ch := s.channel c
  let shuttling (speed : Int) : State :=
    let entered : Channel := { ch with speed := speed, target := v, bounce := none, edgeHold := false }
    (s.commit c .lever (entered.enter .shuttle)).openIfNone c
  match ch.state with
  | .idle => s
  | .following => s
  | .shuttle => s.setChannel c { ch with target := v }
  | .cued => shuttling 0
  | .jog => shuttling 0
  | .playing => shuttling ch.speed
  | .live => shuttling 1200

/-- A WHEEL at neutral from an armed panel (R103). -/
def State.leverNeutral (s : State) (c : ChannelId) : State :=
  if (s.channel c).state = .shuttle then s.setChannel c { s.channel c with target := 0 } else s

/-- A WHEEL from a bound panel (R101). -/
def State.lever (s : State) (p : PanelId) (c : ChannelId) (v : Int) : State :=
  if (s.panel p).arm = .armed then (if v = 0 then s.leverNeutral c else s.leverOut c v)
  else if v = 0 then (s.setArm p .armed).leverNeutral c
  else s

/-- A WHEEL record (R96, R101). -/
def State.wheelRecord (s : State) (p : PanelId) (l : Half) : State :=
  let s1 := s.touchPanel p
  match (s1.panel p).binding with
  | none => s1
  | some c => s1.lever p c (leverSpeed (s1.panel p).curve (leverOf l))

/-- The jog accumulator's limits (R104). -/
def limitJog (v : Int) : Int := max (-1023) (min v 1023)

/-- A JOG on the bound channel (R104). -/
def State.jogChannel (s : State) (c : ChannelId) (n : Int) : State :=
  let ch := s.channel c
  match ch.state with
  | .idle => s
  | .following => s
  | .jog => s.setChannel c { ch with jogAcc := limitJog (ch.jogAcc + n) }
  | _ =>
    let entered : Channel := { ch with jogAcc := limitJog (ch.jogAcc + n), bounce := none, edgeHold := false }
    (s.commit c .jog (entered.enter .jog)).openIfNone c

/-- A JOG record: a count outside −127 to +127 is ignored (R96, R104). -/
def State.jogRecord (s : State) (p : PanelId) (count : Byte) : State :=
  let s1 := s.touchPanel p
  match (s1.panel p).binding with
  | none => s1
  | some c => if -127 ≤ count.toInt then s1.jogChannel c count.toInt else s1

/-! ## Keys (R105, R106) -/

/-- The target serial of a cue whose matching mark is held (R106, case 2). A phase that comes out at or above the
multiple goes to the lookup unchanged (log 36), as does a number at or above D (log 18). -/
def State.cueMark (s : State) (x : TrainId) (m : Mark) : Option Nat :=
  if m.train = x then some m.serial
  else s.serialAt x m.tcnum
    (m.phase * Config.sfu * (s.train x).multiple / (s.train m.train).multiple / Config.sfu)

/-- A cue to a target serial, handled as a GOTO by serial (R106). -/
def State.cueTo (s : State) (c : ChannelId) (serial : Nat) : Verdict := (s.gotoSerial c serial .key).transportDone c

/-- A cue, given the matching mark and the end of an angle it falls back to (R106). -/
def cueOn (c : ChannelId) (mark : Option Mark) (point : Angle → Nat) (s : State) : Verdict :=
  if (s.channel c).state = .idle then .refuse .noSource
  else match s.sourceTrain (s.channel c).source, mark with
  | none, _ => .refuse .noSource
  | some x, some m =>
    match s.cueMark x m with
    | some serial => s.cueTo c serial
    | none => .refuse .notFound
  | some _, none =>
    match (s.channel c).source with
    | .clip id index =>
      match s.angleOf id index with
      | some a => s.cueTo c (point a)
      | none => .refuse .notFound
    | _ => .refuse .noMark

/-- The command a key code names, carried out on the bound channel (Table 5-5, Table 11-4); `none` for a code outside
the ten. -/
def keyCommand (code : Byte) (c : ChannelId) (s : State) : Option Verdict :=
  match code.toNat with
  | 0 => some (playOn c none .key s)
  | 1 => some (pauseOn c .key s)
  | 2 => some (markInOn c s)
  | 3 => some (markOutOn c s)
  | 4 => some (takeOn c s)
  | 5 => some (cueOn c (s.channel c).markIn (·.inSerial) s)
  | 6 => some (cueOn c (s.channel c).markOut (·.outSerial) s)
  | 7 => some (liveOn c none .key s)
  | 8 => some (angleNextOn c .key s)
  | 9 => some (queueNextOn c .key s)
  | _ => none

/-- A key's outcome: its command's effects and no reply, or TRANSPORT/KEY_REFUSED (R105). -/
def State.settleKey (s : State) (p : PanelId) (c : ChannelId) (code : Byte) : Verdict → State
  | .done s' _ => s'
  | .refuse st => s.raise (.keyRefused p c code st)

/-- A pressed key of a bound panel: refused with GANGED on a channel in FOLLOWING whatever its code, and elsewhere
its command's outcome, or nothing for a code outside the ten (R105, R158, log 32). -/
def State.pressKey (s : State) (p : PanelId) (c : ChannelId) (code : Byte) : State :=
  if (s.channel c).state = .following then s.settleKey p c code (.refuse .ganged)
  else
    match keyCommand code c s with
    | none => s
    | some v => s.settleKey p c code v

/-- A KEY record: a key of an unbound panel and a released key (any press byte but 1) are ignored, beyond the
silence they end (R96, R105, R193). -/
def State.keyRecord (s : State) (p : PanelId) (code press : Byte) : State :=
  let s1 := s.touchPanel p
  match (s1.panel p).binding with
  | none => s1
  | some c => if press = 1 then s1.pressKey p c code else s1

/-! ## The dead-man (R108) -/

/-- The dead-man of a panel expires (R108). -/
def State.deadManDue (s : State) (p : PanelId) : Bool :=
  match (s.panel p).binding with
  | none => false
  | some c =>
    decide ((s.panel p).arm ≠ .lost) && decide ((s.channel c).state = .shuttle) &&
      decide ((s.panel p).silence < elapsed s.time (s.panel p).lastRecord)

/-- The expiry of a panel's dead-man; nothing when it is not due (R108, log 7). -/
def State.deadMan (s : State) (p : PanelId) : State :=
  match (s.panel p).binding with
  | none => s
  | some c =>
    if s.deadManDue p then
      ((s.setChannel c { s.channel c with target := 0 }).setArm p .lost).recordFault .panelLost (some p.val)
    else s

/-! ## Meanings -/

/-- BIND. -/
def execBind (tag : Byte) (a : Sent BindArgs) (s : State) : Result := command (.bind tag a) 0x38 tag a bind s

/-- SET_CURVE. -/
def execSetCurve (tag : Byte) (a : Sent SetCurveArgs) (s : State) : Result :=
  command (.setCurve tag a) 0x39 tag a setCurve s

/-- QUERY_CURVE. -/
def execQueryCurve (tag : Byte) (a : Sent Byte) (s : State) : Result :=
  command (.queryCurve tag a) 0x3A tag a queryCurve s

/-- SET_SILENCE. -/
def execSetSilence (tag : Byte) (a : Sent SetSilenceArgs) (s : State) : Result :=
  command (.setSilence tag a) 0x3B tag a setSilence s

/-- WHEEL. -/
def execWheel (p : PanelId) (lever : Half) (s : State) : Result := powered s fun s => s.wheelRecord p lever

/-- JOG. -/
def execJog (p : PanelId) (count : Byte) (s : State) : Result := powered s fun s => s.jogRecord p count

/-- KEY. -/
def execKey (p : PanelId) (code press : Byte) (s : State) : Result := powered s fun s => s.keyRecord p code press

/-- IGNORED_PANEL_RECORD: a taken record of another kind or of a wrong length only restarts the silence (R96). -/
def execIgnoredPanelRecord (p : PanelId) (s : State) : Result := powered s fun s => s.touchPanel p

/-- DEAD_MAN_EXPIRY. -/
def execDeadManExpiry (p : PanelId) (s : State) : Result := powered s fun s => s.deadMan p

end Sys2Proof.Machine
end

