-- ==== Sys2Proof/Machine/Clips.lean ====
section
/-! DEFINITION. The clip commands (spec 07, R133 and R137 to R149): locks, trims, deletion and clearing, guards,
edits and queries. -/

namespace Sys2Proof.Machine

/-- The value and clip checks of a command that names a clip (R133, steps 1 and 2). -/
def onClip (w : Half) (f : Clip → State → Verdict) (s : State) : Verdict :=
  match clipIdOf w with
  | none => .refuse .badValue
  | some id =>
    match s.clipOf id with
    | none => .refuse .notFound
    | some k => f k s

/-- The value check of a command that names a bank (R133, step 1). -/
def onBank (b : Byte) (f : Fin 16 → State → Verdict) (s : State) : Verdict :=
  match bankOf b with
  | none => .refuse .badValue
  | some n => f n s

/-! ## Locks (R137, R138) -/

/-- The chain extents that a clip's present angles touch, angle by angle (R137). -/
def State.clipExtents (s : State) (k : Clip) : List Nat :=
  (k.angles.filter (·.present)).flatMap fun a => s.touched a.train a.inSerial a.outSerial

/-- LOCK_CLIP on a clip (R137). -/
def lockOn (k : Clip) (s : State) : Verdict :=
  if k.state = .lost then .refuse .notFound
  else if k.lock = .held then .done s (.lockCounts 0)
  else
    let es := s.clipExtents k
    let s1 := s.setClip { k with lock := .held }
    .done { s1 with locks := es.foldl raiseLock s1.locks } (.lockCounts es.length)

/-- UNLOCK_CLIP on a clip (R138). -/
def unlockOn (k : Clip) (s : State) : Verdict :=
  if k.lock = .unlocked then .done s (.lockCounts 0)
  else
    let es := s.clipExtents k
    let s1 := s.setClip { k with lock := .unlocked }
    .done { s1 with locks := es.foldl lowerLock s1.locks } (.lockCounts es.length)

/-! ## TRIM_CLIP (R139, R140) -/

/-- An accepted TRIM_CLIP of a present angle (R140). -/
def State.trim (s : State) (k : Clip) (index : Nat) (g : Angle) (a b : Nat) : Verdict :=
  let before := s.touched g.train g.inSerial g.outSerial
  let after := s.touched g.train a b
  let g' : Angle := Angle.rehole { g with inSerial := a, outSerial := b, trimmed := false } (s.train g.train)
  let k' := Clip.derive { k with angles := k.angles.set index g' }
  let held := decide (k.lock = .held)
  let s1 := s.setClip k'
  .done { s1 with locks := if held then after.foldl raiseLock (before.foldl lowerLock s1.locks) else s1.locks }
    (.trim a b g'.holed k'.state (if held then (after.length : Int) - before.length else 0))

/-- TRIM_CLIP of an angle of a clip (R139). -/
def trimOn (index a b : Nat) (k : Clip) (s : State) : Verdict :=
  match k.angles[index]? with
  | none => .refuse .notFound
  | some g =>
    if !g.present then .refuse .notFound
    else if b < a then .refuse .badRange
    else if !((s.train g.train).retained a && (s.train g.train).retained b) then .refuse .badRange
    else s.trim k index g a b

/-! ## Deletion and clearing (R141 to R144) -/

/-- Steps 1 and 2 of R142: the record removed, the queue unit told; with the queue entries removed. -/
def State.removeClip (s : State) (k : Clip) : State × Nat :=
  let s1 : State := { s with clips := s.clips.filter fun d => d.id != k.id }
  s1.dropEntries k

/-- DELETE_CLIP of a clip (R142). -/
def deleteOn (k : Clip) (s : State) : Verdict :=
  if k.lock = .held then .refuse .locked
  else if !(s.users k.id).isEmpty then .refuse .inUse
  else
    let r := s.removeClip k
    .done (r.1.raise (.deleted k.id (k.id / 64) k.state r.2)) (.deleted r.2)

/-- The clips of a bank, in ascending id order. -/
def State.bankClips (s : State) (bank : Nat) : List Clip := s.clips.filter fun k => k.id / 64 == bank

/-- Counts a clear makes: clips removed, clips kept, queue entries removed. -/
structure ClearCounts where
  removed : Nat
  kept : Nat
  entries : Nat
  deriving DecidableEq, Repr

/-- One clip visited by a clear: kept when HELD or in use, removed otherwise (R143). -/
def clearVisit (acc : State × ClearCounts) (k : Clip) : State × ClearCounts :=
  if k.lock = .held ∨ !(acc.1.users k.id).isEmpty then (acc.1, { acc.2 with kept := acc.2.kept + 1 })
  else
    let r := acc.1.removeClip k
    (r.1, { acc.2 with removed := acc.2.removed + 1, entries := acc.2.entries + r.2 })

/-- A bank that is not guarded cleared, with one report when a clip was removed (R143). -/
def State.clearBank (s : State) (bank : Nat) : State × ClearCounts :=
  let r := (s.bankClips bank).foldl clearVisit (s, { removed := 0, kept := 0, entries := 0 })
  (if 0 < r.2.removed then r.1.raise (.bankCleared bank r.2.removed r.2.kept) else r.1, r.2)

/-- CLEAR_BANK of a bank (R143). -/
def clearBankOn (bank : Fin 16) (s : State) : Verdict :=
  if s.guards[bank.val] then .refuse .guarded
  else
    let r := s.clearBank bank.val
    .done r.1 (.bankCleared r.2.removed r.2.kept r.2.entries)

/-- The counts CLEAR_ALL answers with. -/
structure ClearAllCounts where
  removed : Nat
  kept : Nat
  passedOver : Nat
  entries : Nat
  deriving DecidableEq, Repr

/-- One bank visited by CLEAR_ALL: a guarded one is passed over and its clips are all kept (R144). -/
def clearAllVisit (acc : State × ClearAllCounts) (bank : Fin 16) : State × ClearAllCounts :=
  if acc.1.guards[bank.val] then
    (acc.1, { acc.2 with
      kept := acc.2.kept + (acc.1.bankClips bank.val).length, passedOver := acc.2.passedOver + 1 })
  else
    let r := acc.1.clearBank bank.val
    (r.1, { acc.2 with
      removed := acc.2.removed + r.2.removed, kept := acc.2.kept + r.2.kept, entries := acc.2.entries + r.2.entries })

/-- Banks 0 to 15. -/
def allBanks : List (Fin 16) := [0, 1, 2, 3, 4, 5, 6, 7, 8, 9, 10, 11, 12, 13, 14, 15]

/-- CLEAR_ALL (R144). -/
def clearAll (_ : Unit) (s : State) : Verdict :=
  let r := allBanks.foldl clearAllVisit (s, { removed := 0, kept := 0, passedOver := 0, entries := 0 })
  .done r.1 (.allCleared r.2.removed r.2.kept r.2.passedOver r.2.entries)

/-! ## Guards and edits (R145 to R147) -/

/-- A bank's guard set or cleared (R145). -/
def setGuard (on : Bool) (bank : Fin 16) (s : State) : Verdict :=
  .done { s with guards := s.guards.set bank.val on } (.guard s.guards[bank.val])

/-- RENAME (R146): the name is checked before the clip is looked up (R133). -/
def rename (a : RenameArgs) (s : State) : Verdict :=
  if a.name.length ≤ 16 ∧ a.name.all printable then
    onClip a.clip (fun k s =>
      .done (s.setClip { k with name := if a.name.isEmpty then none else some a.name }) .empty) s
  else .refuse .badValue

/-- RATE (R146). -/
def rate (a : RateArgs) (s : State) : Verdict :=
  if a.rating.toNat ≤ 3 then
    onClip a.clip (fun k s => .done (s.setClip { k with rating := a.rating.toNat }) .empty) s
  else .refuse .badValue

/-- A part of SET_CLIP_PLAY applied to its field (R147). -/
def Part.apply {α β : Type} (p : Part α) (f : α → β) (old : Option β) : Option β :=
  match p with
  | .keep => old
  | .clear => none
  | .value v => some (f v)

/-- The bounce part's Vf and Vr each lie from 1 to 38,400 su (R147). -/
def bounceValid : Part BounceField → Bool
  | .value b =>
    decide (1 ≤ b.forwardSpeed.toInt ∧ b.forwardSpeed.toInt ≤ Config.maxSpeed ∧ 1 ≤ b.reverseSpeed.toInt ∧
      b.reverseSpeed.toInt ≤ Config.maxSpeed)
  | _ => true

/-- The bounce settings a value sets. -/
def bounceOf (b : BounceField) : BounceSettings :=
  { forwardSpeed := b.forwardSpeed.toInt, reverseSpeed := b.reverseSpeed.toInt, passes := b.passes.toNat }

/-- SET_CLIP_PLAY (R147). -/
def setClipPlay (a : SetClipPlayArgs) (s : State) : Verdict :=
  if bounceValid a.bounce then
    onClip a.clip (fun k s =>
      let k' : Clip := { k with
        endAction := Part.apply a.endAction id k.endAction
        speed := Part.apply a.speed speedOf k.speed
        bounce := Part.apply a.bounce bounceOf k.bounce }
      .done (s.setClip k') (.clipPlay k'.endAction k'.speed k'.bounce)) s
  else .refuse .badValue

/-! ## Queries (R148, R149) -/

/-- An angle as QUERY_CLIP returns it: the looked-up timecodes of a present angle's ends (R148). -/
def State.angleView (s : State) (a : Angle) : AngleView :=
  { angle := a
    inTime := if a.present then s.fieldAt a.train a.inSerial else none
    outTime := if a.present then s.fieldAt a.train a.outSerial else none }

/-- QUERY_CLIP of a clip (R148); the marked timecodes are reduced mod D before they are labelled (R28). -/
def queryClipOn (k : Clip) (s : State) : Verdict :=
  .done s (.clip k (s.timebase.fieldReduced k.inTime) (s.timebase.fieldReduced k.outTime) (s.users k.id)
    (k.angles.map s.angleView))

/-- A clip as LIST_BANK returns it (R149). -/
def State.clipView (s : State) (k : Clip) : ClipView :=
  { id := k.id, state := k.state, lock := k.lock, rating := k.rating, inUse := !(s.users k.id).isEmpty }

/-- LIST_BANK (R149). -/
def listBank (a : ListBankArgs) (s : State) : Verdict :=
  onBank a.bank (fun bank s =>
    if 63 < a.start.toNat then .refuse .badValue
    else
      let ks := s.bankClips bank.val
      .done s (.bank s.guards[bank.val] ks.length (((ks.drop a.start.toNat).take 32).map s.clipView))) s

/-! ## Commands -/

/-- LOCK_CLIP (R137). -/
def lockClip (w : Half) (s : State) : Verdict := onClip w lockOn s

/-- UNLOCK_CLIP (R138). -/
def unlockClip (w : Half) (s : State) : Verdict := onClip w unlockOn s

/-- TRIM_CLIP (R133, R139). -/
def trimClip (a : TrimClipArgs) (s : State) : Verdict :=
  match angleIndexOf a.angle with
  | none => .refuse .badValue
  | some index => onClip a.clip (trimOn index a.inSerial.toNat a.outSerial.toNat) s

/-- DELETE_CLIP (R142). -/
def deleteClip (w : Half) (s : State) : Verdict := onClip w deleteOn s

/-- CLEAR_BANK (R143). -/
def clearBank (b : Byte) (s : State) : Verdict := onBank b clearBankOn s

/-- GUARD_BANK (R145). -/
def guardBank (b : Byte) (s : State) : Verdict := onBank b (setGuard true) s

/-- UNGUARD_BANK (R145). -/
def unguardBank (b : Byte) (s : State) : Verdict := onBank b (setGuard false) s

/-- QUERY_CLIP (R148). -/
def queryClip (w : Half) (s : State) : Verdict := onClip w queryClipOn s

/-! ## Meanings -/

/-- LOCK_CLIP. -/
def execLockClip (tag : Byte) (a : Sent Half) (s : State) : Result := command (.lockClip tag a) 0x48 tag a lockClip s

/-- UNLOCK_CLIP. -/
def execUnlockClip (tag : Byte) (a : Sent Half) (s : State) : Result :=
  command (.unlockClip tag a) 0x49 tag a unlockClip s

/-- TRIM_CLIP. -/
def execTrimClip (tag : Byte) (a : Sent TrimClipArgs) (s : State) : Result :=
  command (.trimClip tag a) 0x4A tag a trimClip s

/-- DELETE_CLIP. -/
def execDeleteClip (tag : Byte) (a : Sent Half) (s : State) : Result :=
  command (.deleteClip tag a) 0x4B tag a deleteClip s

/-- CLEAR_BANK. -/
def execClearBank (tag : Byte) (a : Sent Byte) (s : State) : Result :=
  command (.clearBank tag a) 0x4C tag a clearBank s

/-- CLEAR_ALL. -/
def execClearAll (tag : Byte) (a : Sent Unit) (s : State) : Result :=
  command (.clearAll tag a) 0x4D tag a clearAll s

/-- GUARD_BANK. -/
def execGuardBank (tag : Byte) (a : Sent Byte) (s : State) : Result :=
  command (.guardBank tag a) 0x4E tag a guardBank s

/-- UNGUARD_BANK. -/
def execUnguardBank (tag : Byte) (a : Sent Byte) (s : State) : Result :=
  command (.unguardBank tag a) 0x4F tag a unguardBank s

/-- RENAME. -/
def execRename (tag : Byte) (a : Sent RenameArgs) (s : State) : Result := command (.rename tag a) 0x50 tag a rename s

/-- RATE. -/
def execRate (tag : Byte) (a : Sent RateArgs) (s : State) : Result := command (.rate tag a) 0x51 tag a rate s

/-- SET_CLIP_PLAY. -/
def execSetClipPlay (tag : Byte) (a : Sent SetClipPlayArgs) (s : State) : Result :=
  command (.setClipPlay tag a) 0x52 tag a setClipPlay s

/-- QUERY_CLIP. -/
def execQueryClip (tag : Byte) (a : Sent Half) (s : State) : Result :=
  command (.queryClip tag a) 0x53 tag a queryClip s

/-- LIST_BANK. -/
def execListBank (tag : Byte) (a : Sent ListBankArgs) (s : State) : Result :=
  command (.listBank tag a) 0x54 tag a listBank s

end Sys2Proof.Machine
end

