-- ==== Sys2Proof/Machine/Status.lean ====
section
/-! DEFINITION. The report and fault unit's commands (spec 10): SET_REPORTS, QUERY_STATUS, READ_FAULTS, CLEAR_FAULTS,
SET_ALARM, and the end of an alarm hold. -/

namespace Sys2Proof.Machine

/-! ## Report settings (R182) -/

/-- One class setting applied. -/
def setClass (v : Vector ClassSetting 6) (r : ReportSettingField) : Vector ClassSetting 6 :=
  v.set (classIndex r.cls) { enabled := r.enabled, priority := r.priority.toNat }

/-- SET_REPORTS (R182). -/
def setReports (l : List ReportSettingField) (s : State) : Verdict :=
  if 1 ≤ l.length ∧ l.length ≤ 6 ∧ (l.map (·.cls)).Nodup ∧ l.all (fun r => decide (r.priority.toNat ≤ 3)) then
    let v := l.foldl setClass s.reports.settings
    .done { s with reports := { s.reports with settings := v } } (.reportSettings v)
  else .refuse .badValue

/-! ## Status queries (R184) -/

/-- The alarm line is asserted: driven, in ASSERTED or CLEARING (R187). -/
def Alarm.asserted (a : Alarm) : Bool := decide (a.line ≠ .deasserted)

/-- A clear is pending (R187). -/
def Alarm.clearPending (a : Alarm) : Bool := decide (a.line = .clearing)

/-- QUERY_STATUS, part SUMMARY: every lost flag is cleared after it is read (R184). -/
def querySummary (_ : Unit) (s : State) : Verdict :=
  .done { s with reports := { s.reports with lost := Vector.replicate 6 false } }
    (.summary s.reports.lost s.runLog.entries.length s.runLog.overrun s.reports.queue.length s.faults.count
      (s.faults.latest.map (·.kind)) s.alarm.asserted s.alarm.clearPending
      (allTrains.map fun x => (s.train x).state)
      (allChannels.map fun c => ((s.channel c).state, (s.channel c).role))
      (allPanels.map fun p => ((s.panel p).binding, (s.panel p).arm)))

/-- QUERY_STATUS, part TRAINS: up to 4 train summaries from the start (R184). -/
def queryTrains (start : Byte) (s : State) : Verdict :=
  match trainOf start with
  | none => .refuse .badValue
  | some x => .done s (.trains (((allTrains.drop x.val).take 4).map fun y => (s.train y).summary))

/-- The kind, primary serial and W of a last present (R68). -/
def Present.brief (p : Present) : PresentSummary :=
  match p.frame with
  | some f => { black := false, serial := some f.serial, weight := f.weight }
  | none => { black := true, serial := none, weight := 0 }

/-- The summary of a channel (R68): the head is absent in IDLE. -/
def State.channelSummary (s : State) (c : ChannelId) : ChannelSummary :=
  let ch := s.channel c
  { state := ch.state, source := s.sourceField ch.source,
    head := if ch.state = .idle then none else some (ch.head / Config.sfu, ch.head % Config.sfu),
    speed := ch.speed, target := ch.target, accel := ch.accel, blend := ch.blend, endAction := ch.endAction,
    liveDelay := ch.liveDelay, role := ch.role, markIn := ch.markIn.isSome, markOut := ch.markOut.isSome,
    lastServed := ch.lastServed, lastPresent := ch.lastPresent.map (·.brief) }

/-- QUERY_STATUS, part CHANNELS: up to 3 channel summaries from the start (R184). -/
def queryChannels (start : Byte) (s : State) : Verdict :=
  match channelOf start with
  | none => .refuse .badValue
  | some c => .done s (.channels (((allChannels.drop c.val).take 3).map s.channelSummary))

/-- The summary of a panel (R114). -/
def Panel.summary (p : Panel) (now : Nat) : PanelSummary :=
  { binding := p.binding, arm := p.arm, silence := p.silence, silentFor := elapsed now p.lastRecord,
    points := p.curve.length, echoPending := p.pendingEcho.isSome }

/-- QUERY_STATUS, part PANELS (R184). -/
def queryPanels (_ : Unit) (s : State) : Verdict :=
  .done s (.panels (allPanels.map fun p => (s.panel p).summary s.time))

/-! ## Faults and the alarm line (R186 to R188) -/

/-- READ_FAULTS (R186). -/
def readFaults (_ : Unit) (s : State) : Verdict :=
  .done s (.faults s.faults s.alarm.mask s.alarm.holdTime s.alarm.asserted s.alarm.clearPending
    (s.alarm.remaining s.time))

/-- CLEAR_FAULTS (R186, R187). -/
def clearFaults (_ : Unit) (s : State) : Verdict :=
  .done { s with faults := .initial, alarm := s.alarm.clear s.time } (.faultsCleared s.faults.count)

/-- The hold under a new alarm hold, lengthened while it runs (R188). -/
def Alarm.lengthened (a : Alarm) (now holdTime : Nat) : Option Hold :=
  if a.running now then a.hold.map fun h => h.lengthen holdTime else a.hold

/-- SET_ALARM (R188). -/
def setAlarm (a : SetAlarmArgs) (s : State) : Verdict :=
  if maskValid a.mask ∧ 100 ≤ a.hold.toNat ∧ a.hold.toNat ≤ 5000 then
    .done { s with alarm := { s.alarm with
        mask := a.mask, holdTime := a.hold.toNat, hold := s.alarm.lengthened s.time a.hold.toNat } }
      (.alarm s.alarm.mask s.alarm.holdTime)
  else .refuse .badValue

/-- The hold end is reached: taken when a hold has run out, and otherwise nothing (R187, log 7). -/
def State.holdEnd (s : State) : State :=
  if s.alarm.holdDue s.time then { s with alarm := s.alarm.holdEnds } else s

/-! ## Meanings -/

/-- SET_REPORTS. -/
def execSetReports (tag : Byte) (a : Sent (List ReportSettingField)) (s : State) : Result :=
  command (.setReports tag a) 0x60 tag a setReports s

/-- QUERY_STATUS, part SUMMARY. -/
def execQueryStatusSummary (tag : Byte) (a : Sent Unit) (s : State) : Result :=
  command (.queryStatusSummary tag a) 0x61 tag a querySummary s

/-- QUERY_STATUS, part TRAINS. -/
def execQueryStatusTrains (tag : Byte) (a : Sent Byte) (s : State) : Result :=
  command (.queryStatusTrains tag a) 0x61 tag a queryTrains s

/-- QUERY_STATUS, part CHANNELS. -/
def execQueryStatusChannels (tag : Byte) (a : Sent Byte) (s : State) : Result :=
  command (.queryStatusChannels tag a) 0x61 tag a queryChannels s

/-- QUERY_STATUS, part PANELS. -/
def execQueryStatusPanels (tag : Byte) (a : Sent Unit) (s : State) : Result :=
  command (.queryStatusPanels tag a) 0x61 tag a queryPanels s

/-- READ_FAULTS. -/
def execReadFaults (tag : Byte) (a : Sent Unit) (s : State) : Result :=
  command (.readFaults tag a) 0x62 tag a readFaults s

/-- CLEAR_FAULTS. -/
def execClearFaults (tag : Byte) (a : Sent Unit) (s : State) : Result :=
  command (.clearFaults tag a) 0x63 tag a clearFaults s

/-- SET_ALARM. -/
def execSetAlarm (tag : Byte) (a : Sent SetAlarmArgs) (s : State) : Result :=
  command (.setAlarm tag a) 0x64 tag a setAlarm s

/-- HOLD_END. -/
def execHoldEnd (s : State) : Result := powered s State.holdEnd

end Sys2Proof.Machine
end

