-- ==== Sys2Proof/Machine/Reset.lean ====
section
/-! DEFINITION. The resets (spec 10 R189, R190; spec 11 R194): RESET with scope PLAYBACK and ALL, power-on reset and
the release of the reset input. -/

namespace Sys2Proof.Machine

/-- A panel under RESET with scope PLAYBACK (R95). -/
def Panel.resetPlayback (p : Panel) (now : Nat) : Panel :=
  { p with arm := .disarmed, pendingEcho := none, lastRecord := now }

/-- The six channel records after every reset (Table 3-1). -/
def initialChannels : Vector Channel 6 :=
  #v[.initial 0, .initial 1, .initial 2, .initial 3, .initial 4, .initial 5]

/-- RESET with scope PLAYBACK (R189): channels, play queues and sessions, and the panels' arms, echoes and silences. -/
def State.resetPlayback (s : State) : State :=
  { s with
    channels := initialChannels
    queues := Vector.replicate 6 .initial
    panels := mapRecords (fun p => p.resetPlayback s.time) s.panels }

/-- A panel under RESET with scope ALL; an echo being sent is completed (R95, R113, R192). -/
def Panel.resetAll (p : Panel) (now : Nat) : Panel := { Panel.initial now with sending := p.sending }

/-- The alarm under RESET with scope ALL: settings at their defaults, the line acted on as a clear (R187, R189). -/
def Alarm.resetAll (a : Alarm) (now : Nat) : Alarm :=
  { a.clear now with mask := Alarm.initial.mask, holdTime := Alarm.initial.holdTime }

/-- The receivers under RESET with scope ALL: the control link's stays, the others return to HUNT (R191). -/
def resetReceivers (v : Vector Receiver 7) : Vector Receiver 7 := (Vector.replicate 7 Receiver.initial).set 0 v[0]

/-- RESET with scope ALL (R189): every block at its power-on values, but for internal time, the command port, the
lanes' answers, the control receiver and the alarm line. -/
def State.resetAll (s : State) : State :=
  { State.reset with
    pending := s.pending
    time := s.time
    panels := mapRecords (fun p => p.resetAll s.time) s.panels
    port := s.port
    alarm := s.alarm.resetAll s.time
    ingest := s.ingest
    playout := s.playout
    receivers := resetReceivers s.receivers
    freeReads := s.freeReads }

/-- RESET, scope ALL. -/
def resetAll (_ : Unit) (s : State) : Verdict := .done s.resetAll .empty

/-- RESET, scope PLAYBACK. -/
def resetPlayback (_ : Unit) (s : State) : Verdict := .done s.resetPlayback .empty

/-- RESET, scope ALL. -/
def execResetAll (tag : Byte) (a : Sent Unit) (s : State) : Result := command (.resetAll tag a) 0x65 tag a resetAll s

/-- RESET, scope PLAYBACK. -/
def execResetPlayback (tag : Byte) (a : Sent Unit) (s : State) : Result :=
  command (.resetPlayback tag a) 0x65 tag a resetPlayback s

/-- POWER_ON_RESET: power-on, or assertion of the reset input, which holds the power-on values until the release
(R194). -/
def execPowerOnReset (s : State) : Result :=
  .next { State.reset with pending := s.pending, resetAsserted := true, freeReads := s.freeReads }

/-- RESET_INPUT_RELEASE: every block holds its power-on values and internal time starts from 0 (R194); nothing when
the input is not asserted (log 8). -/
def execResetInputRelease (s : State) : Result :=
  .next (if s.resetAsserted then { State.reset with pending := s.pending, freeReads := s.freeReads } else s)

end Sys2Proof.Machine
end

