-- ==== Sys2Proof/Machine/Trains.lean ====
section
/-! DEFINITION. The train manager (spec 01): the train commands, the ring search, frame announcements, publishing and
the anchor rule it feeds (spec 02 R36, R37). -/

namespace Sys2Proof.Machine

/-! ## Ring search, reservation, stall (R20, R21, R24, R25) -/

/-- The extents of the pool from the one after the ring cursor, one lap (R20). -/
def Train.lap (t : Train) : List Nat :=
  match t.pool, t.cursor with
  | some p, some c => (List.range p.count).map fun i => p.first + (c - p.first + 1 + i) % p.count
  | _, _ => []

/-- The candidate of a ring search: the first extent of the lap, free or retained, with lock count 0 (R20). -/
def Train.candidate (t : Train) (locks : List (Nat × Nat)) : Option Nat :=
  t.lap.find? fun e => decide ((t.role e = some .free ∨ t.role e = some .retained) ∧ lockCount locks e = 0)

/-- A candidate is picked: a retained extent is reclaimed (R20, R22). -/
def State.pick (s : State) (x : TrainId) (e : Nat) : State :=
  match (s.train x).chain.find? fun d => d.extent == e with
  | some entry => s.reclaim x entry
  | none => s

/-- A ring search whose candidate becomes the reserved extent (R21). -/
def State.reserve (s : State) (x : TrainId) : State :=
  match (s.train x).candidate s.locks with
  | some e =>
    let s1 := s.pick x e
    s1.setTrain x { s1.train x with reserved := some e }
  | none => s

/-- An extent becomes current: a new last chain entry whose first serial is the serial counter and whose fill is 0;
the ring cursor moves to it (R10, R24, R25). -/
def State.makeCurrent (s : State) (x : TrainId) (e : Nat) : State :=
  let t := s.train x
  s.setTrain x { t with
    chain := t.chain ++ [{ extent := e, first := t.serialCounter, fill := 0 }]
    cursor := some e
    reserved := none }

/-- The train stalls, with TRAIN/STALLED and fault TRAIN_STALLED (R10, R24). -/
def State.stall (s : State) (x : TrainId) : State :=
  ((s.setTrain x { s.train x with state := .stalled }).raise (.stalled x)).recordFault .trainStalled (some x.val)

/-! ## The anchor rule (R36, R37) -/

/-- Room made in a full anchor list: the oldest anchor removed, with TRAIN/MAP_FULL (R37). -/
def State.mapRoom (s : State) (x : TrainId) : State :=
  match (s.map x).anchors with
  | oldest :: second :: rest =>
    if Config.maxAnchors ≤ rest.length + 2 then
      (s.setMap x { s.map x with anchors := second :: rest }).raise (.mapFull x oldest.serial second.serial)
    else s
  | _ => s

/-- An anchor appended at the end of the list (R36, step 3). -/
def State.addAnchor (s : State) (x : TrainId) (a : Anchor) : State :=
  s.setMap x { s.map x with anchors := (s.map x).anchors ++ [a] }

/-- The mapper takes a published frame: check and replace, form the expected label, decide whether to anchor, keep
the label (R36). -/
def State.mapPublish (s : State) (x : TrainId) (serial : Nat) (field : TimecodeField) (firstFrame : Bool) : State :=
  let t := s.train x
  let tc := (s.timebase.receive t.multiple field).1
  let replaced := (s.timebase.receive t.multiple field).2
  let expected := (s.map x).lastLabel.map (s.timebase.advance t.multiple)
  let anchor : Anchor := { serial := serial, tcnum := tc.tcnum, phase := tc.phase }
  let s1 :=
    if firstFrame || replaced || expected ≠ some tc then
      let s1 := (s.mapRoom x).addAnchor x anchor
      match firstFrame, expected with
      | false, some ex =>
        s1.raise (.discontinuity x serial (s.timebase.field tc) (s.timebase.field ex) replaced)
      | _, _ => s1
    else s
  s1.setMap x { s1.map x with lastLabel := some tc }

/-! ## Publishing (R18, R24) -/

/-- The current extent's fill raised by 1. -/
def raiseFill : List ChainEntry → List ChainEntry
  | [] => []
  | [e] => [{ e with fill := e.fill + 1 }]
  | a :: b :: rest => a :: raiseFill (b :: rest)

/-- A fill of 64: the reserved extent becomes current, or the train stalls (R24). -/
def State.extentChange (s : State) (x : TrainId) : State :=
  match (s.train x).reserved with
  | some e => s.makeCurrent x e
  | none => s.stall x

/-- The fill compared with the reservation points (step 5 of R18, R21). -/
def State.comparePoints (s : State) (x : TrainId) : State :=
  match (s.train x).current with
  | some e =>
    if e.fill = Config.pagesPerExtent then s.extentChange x
    else if Config.reservationFill ≤ e.fill ∧ (s.train x).reserved = none then s.reserve x
    else s
  | none => s

/-- A good frame is published (R18). -/
def State.publish (s : State) (x : TrainId) (f : InFlight) : State :=
  let t := s.train x
  let s1 := s.setTrain x { t with
    chain := raiseFill t.chain, serialCounter := t.serialCounter + 1, inFlight := none }
  let s2 := s1.mapPublish x f.serial f.label t.firstFrame
  let s3 := s2.setTrain x { s2.train x with firstFrame := false }
  s3.comparePoints x

/-! ## Frame announcements (R12 to R17) -/

/-- An ingest answer is formed (R12). -/
def State.answerIngest (s : State) (tag : Byte) (a : IngestAnswer) : State := { s with ingest := s.ingest.form tag a }

/-- The frame is granted the current extent's next page and the serial counter (R14, step 2). -/
def State.grant (s : State) (x : TrainId) (tag train : Byte) (label : TimecodeField) : State :=
  let t := s.train x
  match t.current with
  | some e =>
    let page := e.extent * Config.pagesPerExtent + e.fill
    let f : InFlight := { page := page, serial := t.serialCounter, label := label }
    (s.setTrain x { t with inFlight := some f }).answerIngest tag (.grant train page t.serialCounter)
  | none => s

/-- FRAME_OPEN for a train in RECORDING: an in-flight frame is abandoned with fault INGEST_SEQUENCE, then the frame
is granted (R14). -/
def State.openRecording (s : State) (x : TrainId) (tag train : Byte) (label : TimecodeField) : State :=
  let s1 := if (s.train x).inFlight.isSome then s.recordFault .ingestSequence (some train.toNat) else s
  s1.grant x tag train label

/-- FRAME_OPEN for a train in STALLED: a stall retry (R15), and the resume when it finds a candidate (R25). -/
def State.openStalled (s : State) (x : TrainId) (tag train : Byte) (label : TimecodeField) : State :=
  match (s.train x).candidate s.locks with
  | some e =>
    let s1 := (s.pick x e).makeCurrent x e
    let s2 := (s1.setTrain x { s1.train x with state := .recording }).raise (.resumed x e)
    s2.grant x tag train label
  | none => s.answerIngest tag (.drop train .stalled)

/-- The serial limit met by a FRAME_OPEN (R13). -/
def State.serialLimitDrop (s : State) (x : TrainId) (tag train : Byte) : State :=
  let s1 := s.answerIngest tag (.drop train .serialLimit)
  let s2 := s1.setTrain x { s1.train x with state := .idle, reserved := none, inFlight := none }
  (s2.raise (.serialLimit x)).recordFault .serialLimit (some x.val)

/-- FRAME_OPEN (R12 to R16). -/
def State.frameOpen (tag train : Byte) (label : TimecodeField) (s : State) : State :=
  match trainOf train with
  | none => s.answerIngest tag (.drop train .notRecording)
  | some x =>
    match (s.train x).state with
    | .recording =>
      if (s.train x).serialCounter = Config.serialLimit then s.serialLimitDrop x tag train
      else s.openRecording x tag train label
    | .stalled =>
      if (s.train x).serialCounter = Config.serialLimit then s.serialLimitDrop x tag train
      else s.openStalled x tag train label
    | .idle => s.answerIngest tag (.drop train .notRecording)
    | .unconfigured => s.answerIngest tag (.drop train .notRecording)

/-- A FRAME_DONE that names no in-flight page: STALE and fault INGEST_SEQUENCE with the train field as received
(R12, R17, R185). -/
def State.staleDone (s : State) (tag train : Byte) (page : Word) : State :=
  (s.answerIngest tag (.stale train page)).recordFault .ingestSequence (some train.toNat)

/-- FRAME_DONE (R17 to R19): a good frame is published, a bad frame settled without publication. -/
def State.frameDone (tag train : Byte) (page : Word) (good : Bool) (s : State) : State :=
  match trainOf train with
  | none => s.staleDone tag train page
  | some x =>
    match (s.train x).inFlight with
    | some f =>
      if f.page = page.toNat then
        let s1 := s.answerIngest tag (.ack train page)
        if good then s1.publish x f else s1.setTrain x { s1.train x with inFlight := none }
      else s.staleDone tag train page
    | none => s.staleDone tag train page

/-! ## Train commands (R6 to R11) -/

/-- Some extent of a pool has a lock count above 0 (R7, R9). -/
def State.poolLocked (s : State) : Option Pool → Bool
  | none => false
  | some p => s.locks.any fun l => p.contains l.1 && decide (0 < l.2)

/-- The new range shares an extent with the pool of another configured train (R7, check 3). -/
def State.poolOverlaps (s : State) (x : TrainId) (p : Pool) : Bool :=
  allTrains.any fun y => decide (y ≠ x) && decide ((s.train y).state ≠ .unconfigured) &&
    match (s.train y).pool with
    | some q => p.overlaps q
    | none => false

/-- The train record an accepted CONFIGURE_TRAIN sets up (R8). -/
def configuredTrain (p : Pool) (multiple : Nat) : Train :=
  { state := .idle, multiple := multiple, pool := some p, chain := [], cursor := some (p.first + p.count - 1),
    reserved := none, serialCounter := 0, inFlight := none, firstFrame := true }

/-- CONFIGURE_TRAIN (R7, R8). -/
def configureTrain (a : ConfigureTrainArgs) (s : State) : Verdict :=
  match trainOf a.train with
  | none => .refuse .badValue
  | some x =>
    let t := s.train x
    let p : Pool := { first := a.first.toNat, count := a.count.toNat }
    if !multipleValid a.multiple.toNat || decide (p.count < 4) || decide (4096 < p.first + p.count) then
      .refuse .badValue
    else if t.state = .recording ∨ t.state = .stalled then .refuse .busy
    else if s.poolOverlaps x p then .refuse .overlap
    else if t.state = .idle ∧ s.poolLocked t.pool then .refuse .locked
    else .done ((s.discard x).setTrain x (configuredTrain p a.multiple.toNat)) .empty

/-- RELEASE_TRAIN (R9). The capture multiple is kept (log 28). -/
def releaseTrain (b : Byte) (s : State) : Verdict :=
  match trainOf b with
  | none => .refuse .badValue
  | some x =>
    match (s.train x).state with
    | .unconfigured => .done s .empty
    | .recording => .refuse .busy
    | .stalled => .refuse .busy
    | .idle =>
      if s.poolLocked (s.train x).pool then .refuse .locked
      else
        let s1 := s.discard x
        .done (s1.setTrain x { s1.train x with
          state := .unconfigured, pool := none, cursor := none, serialCounter := 0, firstFrame := false }) .empty

/-- An IDLE train resumes into its current extent; at a fill of 48 or more a ring search runs at once (R10). -/
def State.resumeTrain (s : State) (x : TrainId) (fill : Nat) : State :=
  let s1 := s.setTrain x { s.train x with state := .recording, firstFrame := true }
  if Config.reservationFill ≤ fill then s1.reserve x else s1

/-- An IDLE train with no current extent, or a full one, searches for one; without a candidate it stalls (R10). -/
def State.startFresh (s : State) (x : TrainId) : State :=
  match (s.train x).candidate s.locks with
  | some e =>
    let s1 := (s.pick x e).makeCurrent x e
    s1.setTrain x { s1.train x with state := .recording, firstFrame := true }
  | none => (s.setTrain x { s.train x with firstFrame := true }).stall x

/-- START_TRAIN (R10). -/
def startTrain (b : Byte) (s : State) : Verdict :=
  match trainOf b with
  | none => .refuse .badValue
  | some x =>
    match (s.train x).state with
    | .unconfigured => .refuse .noSource
    | .recording => .done s .empty
    | .stalled => .done s .empty
    | .idle =>
      match (s.train x).current with
      | some e =>
        if e.fill < Config.pagesPerExtent then .done (s.resumeTrain x e.fill) .empty
        else .done (s.startFresh x) .empty
      | none => .done (s.startFresh x) .empty

/-- STOP_TRAIN (R11). -/
def stopTrain (b : Byte) (s : State) : Verdict :=
  match trainOf b with
  | none => .refuse .badValue
  | some x =>
    match (s.train x).state with
    | .unconfigured => .refuse .noSource
    | .idle => .done s .empty
    | _ => .done (s.setTrain x { s.train x with state := .idle, inFlight := none, reserved := none }) .empty

/-! ## Timebase and anchors (R28, R43) -/

/-- TIMEBASE (R28). -/
def timebase (a : TimebaseArgs) (s : State) : Verdict :=
  let tb : Timebase := { rate := a.rate.toNat, drop := a.drop }
  if !tb.valid then .refuse .badValue
  else if allTrains.any fun x => decide ((s.train x).state ≠ .unconfigured) then .refuse .busy
  else
    .done { s with
      timebase := tb
      channels := mapRecords (fun ch => { ch with markIn := none, markOut := none }) s.channels } .empty

/-- QUERY_ANCHORS (R43). -/
def queryAnchors (a : QueryAnchorsArgs) (s : State) : Verdict :=
  match trainOf a.train with
  | none => .refuse .badValue
  | some x =>
    if 127 < a.start.toNat then .refuse .badValue
    else
      let m := s.map x
      .done s (.anchors s.timebase s.timebase.day (s.train x).multiple m.anchors.length
        (m.lastLabel.map s.timebase.field)
        (((m.anchors.drop a.start.toNat).take 16).map fun g => (g.serial, s.timebase.field ⟨g.tcnum, g.phase⟩)))

/-! ## Meanings -/

/-- CONFIGURE_TRAIN. -/
def execConfigureTrain (tag : Byte) (a : Sent ConfigureTrainArgs) (s : State) : Result :=
  command (.configureTrain tag a) 0x10 tag a configureTrain s

/-- RELEASE_TRAIN. -/
def execReleaseTrain (tag : Byte) (a : Sent Byte) (s : State) : Result :=
  command (.releaseTrain tag a) 0x11 tag a releaseTrain s

/-- START_TRAIN. -/
def execStartTrain (tag : Byte) (a : Sent Byte) (s : State) : Result :=
  command (.startTrain tag a) 0x12 tag a startTrain s

/-- STOP_TRAIN. -/
def execStopTrain (tag : Byte) (a : Sent Byte) (s : State) : Result :=
  command (.stopTrain tag a) 0x13 tag a stopTrain s

/-- TIMEBASE. -/
def execTimebase (tag : Byte) (a : Sent TimebaseArgs) (s : State) : Result :=
  command (.timebase tag a) 0x14 tag a timebase s

/-- QUERY_ANCHORS. -/
def execQueryAnchors (tag : Byte) (a : Sent QueryAnchorsArgs) (s : State) : Result :=
  command (.queryAnchors tag a) 0x15 tag a queryAnchors s

/-- FRAME_OPEN. -/
def execFrameOpen (tag train : Byte) (label : TimecodeField) (s : State) : Result :=
  powered s (State.frameOpen tag train label)

/-- FRAME_DONE. -/
def execFrameDone (tag train : Byte) (page : Word) (good : Bool) (s : State) : Result :=
  powered s (State.frameDone tag train page good)

end Sys2Proof.Machine
end

