-- ==== Sys2Proof/Machine/Framing.lean ====
section
/-! DEFINITION. Link framing (spec 11, R191): the CRC, the receivers, and what a record taken on each link does
(R178, R193). -/

namespace Sys2Proof.Machine

/-! ## The frame (Table 11-1) -/

/-- The start character. -/
def startChar : Byte := 0xC5

/-- One bit of the CRC: a left shift, and the generator when a 1 leaves. -/
def crcBit (c : BitVec 16) : BitVec 16 := if c.msb then (c <<< 1) ^^^ 0x1021#16 else c <<< 1

/-- One byte of the CRC, most significant bit first. -/
def crcByte (c : BitVec 16) (b : Byte) : BitVec 16 :=
  crcBit (crcBit (crcBit (crcBit (crcBit (crcBit (crcBit (crcBit (c ^^^ (b ++ 0#8)))))))))

/-- The CRC-16 of a run of bytes, with initial value 0xFFFF and no final inversion. -/
def crc16 (bs : List Byte) : BitVec 16 := bs.foldl crcByte 0xFFFF#16

/-- A record as it is taken: its kind, tag and body. -/
structure Record where
  kind : Byte
  tag : Byte
  body : List Byte
  deriving DecidableEq, Repr

/-- What the bytes from a start character on amount to: an attempt still collecting, one that fails its check, or a
record with the bytes after its CRC. -/
inductive Attempt where
  | collecting
  | bad
  | good (r : Record) (rest : List Byte)
  deriving DecidableEq, Repr

/-- The record of a collected frame: its last two bytes are the CRC over what stands before them after the start
character. -/
def checkFrame (length : List Byte) (collected rest : List Byte) : Attempt :=
  let n := collected.length - 2
  let content := collected.take n
  match content, collected.drop n with
  | kind :: tag :: body, [hi, lo] =>
    if crc16 (length ++ content) = hi ++ lo then .good { kind := kind, tag := tag, body := body } rest else .bad
  | _, _ => .bad

/-- The attempt that begins after a start character (R191, HEADER and COLLECT). -/
def attempt : List Byte → Attempt
  | l1 :: l2 :: more =>
    let n := (half l1 l2).toNat
    if n < 2 ∨ 252 < n then .bad
    else if more.length < n + 2 then .collecting
    else checkFrame [l1, l2] (more.take (n + 2)) (more.drop (n + 2))
  | _ => .collecting

/-- The records in a run of bytes, in order, and the bytes held at its end from the noted start character on. A bad
attempt is discarded and the bytes after its start character are examined again (R191). The first argument is fuel:
each step passes at least one byte. -/
def scan : Nat → List Byte → List Record × List Byte
  | 0, bs => ([], bs)
  | _ + 1, [] => ([], [])
  | k + 1, b :: bs =>
    if b = startChar then
      match attempt bs with
      | .collecting => ([], b :: bs)
      | .bad => scan k bs
      | .good r rest => let more := scan k rest; (r :: more.1, more.2)
    else scan k bs

/-- The state of a receiver that holds these bytes (R191). -/
def receiverStateOf (held : List Byte) : ReceiverState :=
  if held.isEmpty then .hunt else if held.length < 3 then .header else .collect

/-- The receiver of a link. -/
def linkIndex : Link → Fin 7
  | .control => 0
  | .ingest => 1
  | .playout => 2
  | .panel p => ⟨3 + p.val, by omega⟩

/-- The receiver of a link read. -/
def State.receiver (s : State) (l : Link) : Receiver := s.receivers[(linkIndex l).val]

/-- The receiver of a link replaced. -/
def State.setReceiver (s : State) (l : Link) (r : Receiver) : State :=
  { s with receivers := s.receivers.set (linkIndex l).val r }

/-! ## Records taken -/

/-- The timecode field of FRAME_OPEN, stored as received. -/
def timecodeField (hh mm ss ff p : Byte) : TimecodeField := { hh := hh, mm := mm, ss := ss, ff := ff, phase := p }

/-- A record taken on the control link arrives at the command port (R178, log 24). -/
def State.takeCommand (s : State) (kind tag : Byte) (body : List Byte) : State :=
  s.arrive (decodeCommand kind tag body) kind tag

/-- A record taken on the ingest link; another kind or a wrong length is ignored (R193). A good/bad byte other than
1 is taken as bad. -/
def State.takeIngest (s : State) (r : Record) : State :=
  match r.kind.toNat, r.body with
  | 0x80, [t, hh, mm, ss, ff, p] => s.frameOpen r.tag t (timecodeField hh mm ss ff p)
  | 0x81, [t, p1, p2, p3, p4, g] => s.frameDone r.tag t (word p1 p2 p3 p4) (g == 1)
  | _, _ => s

/-- A record taken on the playout link; another kind or a wrong length is ignored (R49, R193). -/
def State.takePlayout (s : State) (r : Record) : State :=
  match r.kind.toNat, r.body with
  | 0x90, [c, n1, n2, n3, n4] => s.frameRequest r.tag c (word n1 n2 n3 n4)
  | _, _ => s

/-- A record taken on a panel link; another kind or a wrong length only restarts the silence (R96). -/
def State.takePanel (s : State) (p : PanelId) (r : Record) : State :=
  match r.kind.toNat, r.body with
  | 0xA0, [l1, l2] => s.wheelRecord p (half l1 l2)
  | 0xA1, [n] => s.jogRecord p n
  | 0xA2, [code, press] => s.keyRecord p code press
  | _, _ => s.touchPanel p

/-- A record taken by its link's block. -/
def State.takeRecord (l : Link) (s : State) (r : Record) : State :=
  match l with
  | .control => s.takeCommand r.kind r.tag r.body
  | .ingest => s.takeIngest r
  | .playout => s.takePlayout r
  | .panel p => s.takePanel p r

/-- A run of bytes examined by a link's receiver: the records in it are taken, and the rest is held. -/
def State.examine (s : State) (l : Link) (bs : List Byte) (lastByte : Nat) : State :=
  let found := scan (bs.length + 1) bs
  let s1 := s.setReceiver l { state := receiverStateOf found.2, held := found.2, lastByte := lastByte }
  found.1.foldl (State.takeRecord l) s1

/-- A byte arrives on a receive lane (R191). -/
def State.receiveByte (s : State) (l : Link) (b : Byte) : State := s.examine l ((s.receiver l).held ++ [b]) s.time

/-- The byte makes the attempt the receiver holds fail its length or CRC check. -/
def discardsOn (held : List Byte) (b : Byte) : Bool :=
  match held with
  | [] => false
  | _ :: bs =>
    match attempt (bs ++ [b]) with
    | .bad => true
    | _ => false

/-- A receiver holds an attempt that has received no byte for 1 ms (R191, log 6). -/
def State.timeoutDue (s : State) (l : Link) : Bool :=
  decide ((s.receiver l).state ≠ .hunt) && decide (1 ≤ elapsed s.time (s.receiver l).lastByte)

/-- The held attempt is discarded, and the bytes after its start character are examined again (R191). -/
def State.timeout (s : State) (l : Link) : State :=
  if s.timeoutDue l then s.examine l ((s.receiver l).held.drop 1) (s.receiver l).lastByte else s

/-! ## Meanings -/

/-- COMMAND_ARRIVAL (R178). -/
def execCommandArrival (kind tag : Byte) (body : List Byte) (s : State) : Result :=
  powered s fun s => s.takeCommand kind tag body

/-- RECEIVED_BYTE (R191, log 5). -/
def execReceivedByte (l : Link) (b : Byte) (s : State) : Result := powered s fun s => s.receiveByte l b

/-- FRAMING_DISCARD: the byte that makes the attempt fail, and nothing when it does not (R191, log 5). -/
def execFramingDiscard (l : Link) (b : Byte) (s : State) : Result :=
  powered s fun s => if discardsOn (s.receiver l).held b then s.receiveByte l b else s

/-- RECEIVER_TIMEOUT (R191). -/
def execReceiverTimeout (l : Link) (s : State) : Result := powered s fun s => s.timeout l

end Sys2Proof.Machine
end

