-- ==== Sys2Proof/Machine/Dispatch.lean ====
section
/-! DEFINITION. The meaning of each command: one arm per row of the opcode table, one direct call of its meaning. -/

namespace Sys2Proof.Machine

def exec (i : Instr) (s : State) : Host.Outcome State Fault Refusal :=
  match i with
  | .powerOnReset => Sys2Proof.Machine.execPowerOnReset s
  | .resetInputRelease => Sys2Proof.Machine.execResetInputRelease s
  | .commandArrival kind tag body => Sys2Proof.Machine.execCommandArrival kind tag body s
  | .unknownKind kind tag => Sys2Proof.Machine.execUnknownKind kind tag s
  | .configureTrain tag a => Sys2Proof.Machine.execConfigureTrain tag a s
  | .releaseTrain tag a => Sys2Proof.Machine.execReleaseTrain tag a s
  | .startTrain tag a => Sys2Proof.Machine.execStartTrain tag a s
  | .stopTrain tag a => Sys2Proof.Machine.execStopTrain tag a s
  | .timebase tag a => Sys2Proof.Machine.execTimebase tag a s
  | .queryAnchors tag a => Sys2Proof.Machine.execQueryAnchors tag a s
  | .loadClip tag a => Sys2Proof.Machine.execLoadClip tag a s
  | .selectTrain tag a => Sys2Proof.Machine.execSelectTrain tag a s
  | .unload tag a => Sys2Proof.Machine.execUnload tag a s
  | .play tag a => Sys2Proof.Machine.execPlay tag a s
  | .setSpeed tag a => Sys2Proof.Machine.execSetSpeed tag a s
  | .pause tag a => Sys2Proof.Machine.execPause tag a s
  | .goto tag a => Sys2Proof.Machine.execGoto tag a s
  | .live tag a => Sys2Proof.Machine.execLive tag a s
  | .setAccel tag a => Sys2Proof.Machine.execSetAccel tag a s
  | .setBlend tag a => Sys2Proof.Machine.execSetBlend tag a s
  | .setEndAction tag a => Sys2Proof.Machine.execSetEndAction tag a s
  | .setTargetBank tag a => Sys2Proof.Machine.execSetTargetBank tag a s
  | .setAngleGroup tag a => Sys2Proof.Machine.execSetAngleGroup tag a s
  | .angle tag a => Sys2Proof.Machine.execAngle tag a s
  | .angleNext tag a => Sys2Proof.Machine.execAngleNext tag a s
  | .gang tag a => Sys2Proof.Machine.execGang tag a s
  | .ungang tag a => Sys2Proof.Machine.execUngang tag a s
  | .bind tag a => Sys2Proof.Machine.execBind tag a s
  | .setCurve tag a => Sys2Proof.Machine.execSetCurve tag a s
  | .queryCurve tag a => Sys2Proof.Machine.execQueryCurve tag a s
  | .setSilence tag a => Sys2Proof.Machine.execSetSilence tag a s
  | .markIn tag a => Sys2Proof.Machine.execMarkIn tag a s
  | .markOut tag a => Sys2Proof.Machine.execMarkOut tag a s
  | .clearMarks tag a => Sys2Proof.Machine.execClearMarks tag a s
  | .take tag a => Sys2Proof.Machine.execTake tag a s
  | .lockClip tag a => Sys2Proof.Machine.execLockClip tag a s
  | .unlockClip tag a => Sys2Proof.Machine.execUnlockClip tag a s
  | .trimClip tag a => Sys2Proof.Machine.execTrimClip tag a s
  | .deleteClip tag a => Sys2Proof.Machine.execDeleteClip tag a s
  | .clearBank tag a => Sys2Proof.Machine.execClearBank tag a s
  | .clearAll tag a => Sys2Proof.Machine.execClearAll tag a s
  | .guardBank tag a => Sys2Proof.Machine.execGuardBank tag a s
  | .unguardBank tag a => Sys2Proof.Machine.execUnguardBank tag a s
  | .rename tag a => Sys2Proof.Machine.execRename tag a s
  | .rate tag a => Sys2Proof.Machine.execRate tag a s
  | .setClipPlay tag a => Sys2Proof.Machine.execSetClipPlay tag a s
  | .queryClip tag a => Sys2Proof.Machine.execQueryClip tag a s
  | .listBank tag a => Sys2Proof.Machine.execListBank tag a s
  | .queueAdd tag a => Sys2Proof.Machine.execQueueAdd tag a s
  | .queueRemove tag a => Sys2Proof.Machine.execQueueRemove tag a s
  | .queueClear tag a => Sys2Proof.Machine.execQueueClear tag a s
  | .queryQueue tag a => Sys2Proof.Machine.execQueryQueue tag a s
  | .queueStart tag a => Sys2Proof.Machine.execQueueStart tag a s
  | .queueNext tag a => Sys2Proof.Machine.execQueueNext tag a s
  | .readRunlog tag a => Sys2Proof.Machine.execReadRunlog tag a s
  | .flushRunlog tag a => Sys2Proof.Machine.execFlushRunlog tag a s
  | .setReports tag a => Sys2Proof.Machine.execSetReports tag a s
  | .queryStatusSummary tag a => Sys2Proof.Machine.execQueryStatusSummary tag a s
  | .queryStatusTrains tag a => Sys2Proof.Machine.execQueryStatusTrains tag a s
  | .queryStatusChannels tag a => Sys2Proof.Machine.execQueryStatusChannels tag a s
  | .queryStatusPanels tag a => Sys2Proof.Machine.execQueryStatusPanels tag a s
  | .readFaults tag a => Sys2Proof.Machine.execReadFaults tag a s
  | .clearFaults tag a => Sys2Proof.Machine.execClearFaults tag a s
  | .setAlarm tag a => Sys2Proof.Machine.execSetAlarm tag a s
  | .resetAll tag a => Sys2Proof.Machine.execResetAll tag a s
  | .resetPlayback tag a => Sys2Proof.Machine.execResetPlayback tag a s
  | .frameOpen tag train label => Sys2Proof.Machine.execFrameOpen tag train label s
  | .frameDone tag train page good => Sys2Proof.Machine.execFrameDone tag train page good s
  | .frameRequest tag channel n => Sys2Proof.Machine.execFrameRequest tag channel n s
  | .wheel panel lever => Sys2Proof.Machine.execWheel panel lever s
  | .jog panel count => Sys2Proof.Machine.execJog panel count s
  | .key panel code press => Sys2Proof.Machine.execKey panel code press s
  | .ignoredPanelRecord panel => Sys2Proof.Machine.execIgnoredPanelRecord panel s
  | .deadManExpiry panel => Sys2Proof.Machine.execDeadManExpiry panel s
  | .echoSent panel => Sys2Proof.Machine.execEchoSent panel s
  | .controlRecordSent => Sys2Proof.Machine.execControlRecordSent s
  | .answerSent lane => Sys2Proof.Machine.execAnswerSent lane s
  | .holdEnd => Sys2Proof.Machine.execHoldEnd s
  | .framingDiscard link byte => Sys2Proof.Machine.execFramingDiscard link byte s
  | .receiverTimeout link => Sys2Proof.Machine.execReceiverTimeout link s
  | .receivedByte link byte => Sys2Proof.Machine.execReceivedByte link byte s

end Sys2Proof.Machine
end

