-- ==== Sys2Proof/Machine/Events.lean ====
section
/-! DEFINITION. What the device does on its own when no command waits in its queue (log 2): the command whose turn it
is at the port, a timer that has run out, or the passing of one millisecond of internal time. (An idle lane begins
what it has to send in the event itself, `State.startLanes`.) -/

namespace Sys2Proof.Machine

/-- The seven links. -/
def allLinks : List Link := [.control, .ingest, .playout, .panel 0, .panel 1, .panel 2, .panel 3]

/-- The first timer that has run out: the alarm hold (R187), a dead-man (R108), a record attempt (R191). -/
def State.timerEvent (s : State) : Option Instr :=
  if s.alarm.holdDue s.time then some .holdEnd
  else match allPanels.find? s.deadManDue with
    | some p => some (.deadManExpiry p)
    | none => (allLinks.find? s.timeoutDue).map .receiverTimeout

/-- The device's own next event: the oldest buffered command (R179), then the timers. -/
def State.ownEvent (s : State) : Option Instr :=
  match s.port.waiting with
  | i :: _ => some i
  | [] => s.timerEvent

/-- One millisecond passes (Table 0-3, log 4). -/
def State.tick (s : State) : State := { s with time := timePlus s.time 1 }

end Sys2Proof.Machine
end

