-- ==== Sys2Proof/Machine/Step.lean ====
section
/-! DEFINITION. One step of the device, and the host's question about words of the opcode table. -/

namespace Sys2Proof.Machine

/-- The command at the front of the queue is carried out on the state with the rest of the queue. On an empty queue
the device carries out its own next event, or lets a millisecond pass; nothing while the reset input is asserted
(log 2, log 8). -/
def step (s : State) : Host.Outcome State Fault Refusal :=
  match s.pending with
  | i :: rest => exec i { s with pending := rest }
  | [] =>
    if s.resetAsserted then .next s
    else match s.ownEvent with
      | some i => exec i s
      | none => .next s.tick

/-- The command a word of the opcode table spells put at the front of the queue; the table gives no row any bits, so
every word leaves the state as it is (log 26). -/
def State.withFetchWord (s : State) (nbits w : Nat) : State :=
  match decodeTableWord nbits w with
  | some i => { s with pending := i :: s.pending }
  | none => s

end Sys2Proof.Machine
end

