-- ==== Sys2Proof/Machine/Encode.lean ====
section
/-! DEFINITION. The bytes of the records the device sends (spec 11, Tables 11-1 to 11-9, R182, R193). State holds
outgoing records by their fields; these functions give the bytes a lane carries. Where the spec fixes no width or
code (log 34) the comment says so. -/

namespace Sys2Proof.Machine

/-! ## Field types (Table 11-3) -/

/-- One byte, unsigned. -/
def u1 (n : Nat) : List Byte := [BitVec.ofNat 8 n]
/-- Two bytes, most significant first. -/
def u2 (n : Nat) : List Byte := [BitVec.ofNat 8 (n / 256), BitVec.ofNat 8 n]
/-- Four bytes, most significant first. -/
def u4 (n : Nat) : List Byte := u2 (n / 65536) ++ u2 n
/-- Four bytes, two's complement. -/
def i4 (v : Int) : List Byte := u4 (BitVec.ofInt 32 v).toNat
/-- A flag. -/
def flag1 (b : Bool) : List Byte := u1 (if b then 1 else 0)
/-- An optional field behind its presence byte, zero when absent. -/
def optional {α : Type} (width : Nat) (f : α → List Byte) : Option α → List Byte
  | some a => 1 :: f a
  | none => 0 :: List.replicate width 0
/-- A list behind its count byte. -/
def counted {α : Type} (f : α → List Byte) (l : List α) : List Byte := u1 l.length ++ l.flatMap f
/-- A page, absent as 0xFFFFFFFF. -/
def pageField (p : Option Nat) : List Byte := u4 (p.getD 0xFFFFFFFF)
/-- A channel, none as 0xFF. -/
def channelField (c : Option ChannelId) : List Byte := u1 ((c.map (·.val)).getD 0xFF)
/-- A timecode field, absent as hh = 0xFF and the rest 0. -/
def timeField : Option LabelPhase → List Byte
  | some t => u1 t.label.hh ++ u1 t.label.mm ++ u1 t.label.ss ++ u1 t.label.ff ++ u1 t.phase
  | none => [0xFF, 0, 0, 0, 0]
/-- A name: its length, then 16 characters. -/
def nameField (n : Option (List Byte)) : List Byte :=
  let l := n.getD []
  u1 l.length ++ l ++ List.replicate (16 - l.length) 0
/-- A source (5 bytes). -/
def sourceField (f : SourceField) : List Byte :=
  let train := u1 ((f.train.map (·.val)).getD 0xFF)
  match f.source with
  | .noSource => u1 0 ++ u1 0xFF ++ u2 0xFFFF ++ u1 0xFF
  | .train _ => u1 1 ++ train ++ u2 0xFFFF ++ u1 0xFF
  | .clip id angle => u1 2 ++ train ++ u2 id ++ u1 angle
/-- A set of channels, bit 0 for A. -/
def channelSet (l : List ChannelId) : List Byte := u1 (l.foldl (fun n c => n + 2 ^ c.val) 0)
/-- Six flags as a set of one byte, in table order from bit 0; that the lost flags of a SUMMARY are a set and not six
flag bytes is the model's choice (log 34). -/
def flagSet (v : Vector Bool 6) : List Byte := u1 ((v.toList.zipIdx.map fun b => if b.1 then 2 ^ b.2 else 0).sum)

/-! ## Enumerations (Table 11-4, Table 11-5) -/

/-- A train state. -/
def trainStateCode : TrainState → Nat
  | .unconfigured => 0 | .idle => 1 | .recording => 2 | .stalled => 3
/-- A transport state. -/
def transportCode : TransportState → Nat
  | .idle => 0 | .cued => 1 | .playing => 2 | .shuttle => 3 | .jog => 4 | .live => 5 | .following => 6
/-- A drop reason. -/
def dropCode : DropReason → Nat
  | .notRecording => 0 | .stalled => 1 | .serialLimit => 2
/-- An end action. -/
def endActionCode : EndAction → Nat
  | .stop => 0 | .loop => 1 | .bounce => 2 | .next => 3
/-- An arm state. -/
def armCode : ArmState → Nat
  | .armed => 0 | .disarmed => 1 | .lost => 2
/-- A clip state. -/
def clipStateCode : ClipState → Nat
  | .valid => 0 | .partialClip => 1 | .lost => 2
/-- A clip lock. -/
def lockCode : ClipLock → Nat
  | .unlocked => 0 | .held => 1
/-- A run log outcome. -/
def outcomeCode : RunOutcome → Nat
  | .complete => 0 | .cutShort => 1 | .aborted => 2 | .skippedDeleted => 3 | .skippedLost => 4
/-- A status code. -/
def statusCode : Status → Nat
  | .ok => 0x00 | .unknownKind => 0x01 | .badLength => 0x02 | .badValue => 0x03 | .busy => 0x04
  | .overlap => 0x05 | .locked => 0x06 | .guarded => 0x07 | .inUse => 0x08 | .ganged => 0x09
  | .noSource => 0x0A | .notFound => 0x0B | .untimed => 0x0C | .noMark => 0x0D | .badRange => 0x0E
  | .badCurve => 0x0F | .tableFull => 0x10 | .bankFull => 0x11 | .queueFull => 0x12 | .overload => 0x13
/-- A gang role with its follow state; the codes are the model's (log 34). -/
def roleCode : GangRole → Nat
  | .noGang => 0 | .leader => 1 | .follower .tracking => 2 | .follower .holding => 3
/-- A cause, numbered in the order R70 lists them (log 34). -/
def causeCode : Cause → Nat
  | .command => 0 | .key => 1 | .lever => 2 | .jog => 3 | .deadMan => 4 | .bound => 5 | .endAction => 6
  | .queue => 7 | .catchUp => 8 | .angleLoss => 9 | .trainDiscard => 10 | .gang => 11
/-- A reason of EDGE/FOLLOW_LOST, numbered in the order R159 lists them (log 34). -/
def reasonCode : HoldReason → Nat
  | .leaderIdle => 0 | .untimed => 1 | .notFound => 2
/-- A change of an angle: its case of Table 7-2, or 5 for discarded (log 34). -/
def caseCode : TrimCase → Nat
  | .case1 => 1 | .case2 => 2 | .case3 => 3 | .case4 => 4 | .discarded => 5
/-- A report's kind within its class, from 0 in the order of Table 10-2 (section 11.4). -/
def reportKind : ReportBody → Nat
  | .stateChanged .. => 0 | .keyRefused .. => 1
  | .edgeHold .. => 0 | .pushed .. => 1 | .holeSkipped .. => 2 | .caughtUp .. => 3 | .followLost .. => 4
  | .committed .. => 0 | .trimmed .. => 1 | .lost .. => 2 | .deleted .. => 3 | .bankCleared .. => 3
  | .stalled _ => 0 | .resumed .. => 1 | .discontinuity .. => 2 | .mapFull .. => 3 | .serialLimit _ => 4
  | .appended .. => 0
  | .recorded .. => 0

/-! ## Ingest, playout and panel records (Table 11-6, Table 11-7) -/

/-- The kind and body of an ingest answer. -/
def ingestRecord : IngestAnswer → Byte × List Byte
  | .grant t page serial => (0x88, t :: (u4 page ++ u4 serial))
  | .drop t reason => (0x89, t :: u1 (dropCode reason))
  | .ack t page => (0x8A, t :: u4 page.toNat)
  | .stale t page => (0x8B, t :: u4 page.toNat)

/-- The body of a PRESENT. -/
def presentBody (p : Present) : List Byte :=
  let middle := match p.frame with
    | some f =>
      u1 0 ++ u4 f.primary ++ pageField f.secondary ++ u1 f.weight ++ u1 f.train.val ++ u4 f.serial ++
        timeField f.timecode
    | none => u1 1 ++ pageField none ++ pageField none ++ u1 0 ++ u1 0xFF ++ u4 0 ++ timeField none
  u1 p.channel.val ++ u4 p.n ++ middle ++ u1 (transportCode p.state) ++ i4 p.speed

/-- The body of an ECHO. -/
def echoBody (e : Echo) : List Byte :=
  u1 e.channel.val ++ u1 (transportCode e.state) ++ i4 e.speed ++ timeField e.timecode ++
    u2 (e.clip.getD 0xFFFF) ++ u1 (armCode e.arm)

/-! ## Summaries and records inside replies -/

/-- A head as serial and fraction. -/
def headField (h : Nat × Nat) : List Byte := u4 h.1 ++ u2 h.2

/-- The transport summary (R71). -/
def transportField (t : TransportSummary) : List Byte :=
  u1 (transportCode t.state) ++ sourceField t.source ++ optional 6 headField t.head ++ i4 t.speed ++ i4 t.target

/-- The train summary (R27). The current extent and its fill are one optional field, behind one presence byte, by the
model's choice, as is the one byte of the fill (log 34). -/
def trainField (t : TrainSummary) : List Byte :=
  u1 (trainStateCode t.state) ++ u1 t.multiple ++ optional 4 (fun p => u2 p.first ++ u2 p.count) t.pool ++
    u2 t.entries ++ optional 3 (fun e => u2 e.1 ++ u1 e.2) t.current ++ optional 2 u2 t.reserved ++
    optional 4 u4 t.oldestEdge ++ optional 4 u4 t.recordEdge ++ u4 t.serialCounter ++ u2 t.holes

/-- The last present in a channel summary (R68); the width of W here is log 34's. -/
def briefField (p : PresentSummary) : List Byte := flag1 p.black ++ optional 4 u4 p.serial ++ u1 p.weight

/-- The channel summary (R68). -/
def channelSummaryField (c : ChannelSummary) : List Byte :=
  u1 (transportCode c.state) ++ sourceField c.source ++ optional 6 headField c.head ++ i4 c.speed ++ i4 c.target ++
    i4 c.accel ++ flag1 c.blend ++ u1 (endActionCode c.endAction) ++ u4 c.liveDelay ++ u1 (roleCode c.role) ++
    flag1 c.markIn ++ flag1 c.markOut ++ optional 4 u4 c.lastServed ++ optional 7 briefField c.lastPresent

/-- The panel summary (R114). -/
def panelField (p : PanelSummary) : List Byte :=
  channelField p.binding ++ u1 (armCode p.arm) ++ u4 p.silence ++ u4 p.silentFor ++ u1 p.points ++
    flag1 p.echoPending

/-- Bounce settings. -/
def bounceField (b : BounceSettings) : List Byte := i4 b.forwardSpeed ++ i4 b.reverseSpeed ++ u1 b.passes

/-- An angle of Table 11-8. -/
def angleField (v : AngleView) : List Byte :=
  u1 v.angle.train.val ++ u4 v.angle.inSerial ++ u4 v.angle.outSerial ++
    u1 ((if v.angle.present then 1 else 0) + (if v.angle.holed then 2 else 0) + (if v.angle.trimmed then 4 else 0)) ++
    timeField v.inTime ++ timeField v.outTime

/-- A clip record as QUERY_CLIP returns it (Table 11-8, which has no bank; R148, log 34). -/
def clipField (c : Clip) (inTime outTime : LabelPhase) (users : List ChannelId) (angles : List AngleView) :
    List Byte :=
  u2 c.id ++ u1 (clipStateCode c.state) ++ u1 (lockCode c.lock) ++ u1 c.primary ++ timeField (some inTime) ++
    timeField (some outTime) ++ nameField c.name ++ u1 c.rating ++
    optional 1 (fun e => u1 (endActionCode e)) c.endAction ++ optional 4 i4 c.speed ++
    optional 9 bounceField c.bounce ++ channelSet users ++ counted angleField angles

/-- A run log entry (Table 11-9). -/
def runField (e : RunEntry) : List Byte :=
  u1 e.channel.val ++ u2 e.clip ++ u1 e.train.val ++ u1 (outcomeCode e.outcome) ++
    u1 ((if e.firstCount.isSome then 1 else 0) + (if e.lastCount.isSome then 2 else 0)) ++
    u4 (e.firstCount.getD 0) ++ u4 (e.lastCount.getD 0) ++ u4 e.presented

/-- A session record (R174). -/
def sessionField (r : Session) : List Byte :=
  u2 r.clip ++ u1 r.train.val ++ optional 4 u4 r.firstCount ++ optional 4 u4 r.lastCount ++ u4 r.presented

/-- A queue entry (R168). -/
def entryField (e : QueueEntry) : List Byte := u2 e.clip ++ optional 1 u1 e.angle ++ optional 4 i4 e.speed

/-- A fault of the fault record (R185). Its object is one byte behind a presence byte, by log 34. -/
def faultField (f : FaultEntry) : List Byte := u1 (faultBit f.kind) ++ optional 1 u1 f.object ++ u4 f.time

/-- An anchor in a QUERY_ANCHORS reply (R43). -/
def anchorField (a : Nat × LabelPhase) : List Byte := u4 a.1 ++ timeField (some a.2)

/-- A clip in a LIST_BANK reply (R149). -/
def listField (v : ClipView) : List Byte :=
  u2 v.id ++ u1 (clipStateCode v.state) ++ u1 (lockCode v.lock) ++ u1 v.rating ++ flag1 v.inUse

/-- A class setting in a SET_REPORTS reply, its enable and its priority; that the six follow each other in class order,
with no class byte and no count, is the model's choice (R182, log 34). -/
def settingField (c : ClassSetting) : List Byte := flag1 c.enabled ++ u1 c.priority

/-! ## Replies (R180) -/

/-- The bytes of a reply after its status byte, in the order its command's rule lists the fields (R193). A count is one
byte, and two where its range passes 255; the other widths that Table 11-3 does not give (in QUERY_ANCHORS one byte for
F, a flag for the counting mode and four bytes for D, R43; four for the net change of a trim and for times; one for an
index) are the model's choice. So are the presence byte before the transport summary of QUEUE_REMOVE; the one presence
byte before the clip id and angle index that QUEUE_START and QUEUE_NEXT loaded (R169); the train states, channel items
and panel items of the SUMMARY that follow each other with no count byte (R184); and the code of the follow state in
GANG's reply, that of the gang role (R157) (log 34). -/
def replyFields : ReplyBody → List Byte
  | .empty => []
  | .transport t => transportField t
  | .anchors tb day m n last l =>
    u1 tb.rate ++ flag1 tb.drop ++ u4 day ++ u1 m ++ u1 n ++ timeField last ++ counted anchorField l
  | .angle t i x => transportField t ++ u1 i ++ u1 x.val
  | .angleNext t i x n => transportField t ++ u1 i ++ u1 x.val ++ u1 n
  | .trainNext t x n => transportField t ++ u1 x.val ++ u1 n
  | .gang t f => transportField t ++ u1 (roleCode (.follower f))
  | .bind prev displaced => channelField prev ++ optional 1 (fun p => u1 p.val) displaced
  | .curve l => counted (fun p => u2 p.lever ++ u4 p.speed) l
  | .mark x n t other => u1 x.val ++ u4 n ++ timeField (some t) ++ flag1 other
  | .marksCleared i o => flag1 i ++ flag1 o
  | .take id primary l =>
    u2 id ++ u1 primary ++
      counted (fun a => u1 a.train.val ++ u4 a.inSerial ++ u4 a.outSerial ++ flag1 a.holed) l
  | .lockCounts n => u2 n
  | .trim a b holed st net => u4 a ++ u4 b ++ flag1 holed ++ u1 (clipStateCode st) ++ i4 net
  | .deleted n => u1 n
  | .bankCleared r k n => u1 r ++ u1 k ++ u1 n
  | .allCleared r k p n => u2 r ++ u2 k ++ u1 p ++ u1 n
  | .guard g => flag1 g
  | .clipPlay e v b =>
    optional 1 (fun e => u1 (endActionCode e)) e ++ optional 4 i4 v ++ optional 9 bounceField b
  | .clip c i o users angles => clipField c i o users angles
  | .bank g n l => flag1 g ++ u1 n ++ counted listField l
  | .queueAdded i n => u1 i ++ u1 n
  | .queueRemoved n t => u1 n ++ optional 21 transportField t
  | .queueCleared n => u1 n
  | .queue p n l r => flag1 p ++ u1 n ++ counted entryField l ++ optional 17 sessionField r
  | .queueLoaded k l t => u1 k ++ optional 3 (fun ia => u2 ia.1 ++ u1 ia.2) l ++ transportField t
  | .runLog l left overrun => u1 l.length ++ u2 left ++ flag1 overrun ++ l.flatMap runField
  | .flushed n => u2 n
  | .reportSettings v => v.toList.flatMap settingField
  | .summary lost n overrun q count latest asserted pending trains channels panels =>
    flagSet lost ++ u2 n ++ flag1 overrun ++ u1 q ++ u2 count ++ optional 1 (fun k => u1 (faultBit k)) latest ++
      flag1 asserted ++ flag1 pending ++ trains.flatMap (fun t => u1 (trainStateCode t)) ++
      channels.flatMap (fun c => u1 (transportCode c.1) ++ u1 (roleCode c.2)) ++
      panels.flatMap (fun p => channelField p.1 ++ u1 (armCode p.2))
  | .trains l => counted trainField l
  | .channels l => counted channelSummaryField l
  | .panels l => l.flatMap panelField
  | .faults r mask hold asserted pending left =>
    optional 7 faultField r.first ++ optional 7 faultField r.latest ++ u2 r.count ++ [mask] ++ u4 hold ++
      flag1 asserted ++ flag1 pending ++ optional 4 u4 left
  | .faultsCleared n => u2 n
  | .alarm mask hold => mask :: u4 hold

/-- The body of a reply: its status byte, then the fields of an OK reply (section 11.4). -/
def replyBytes (r : Reply) : List Byte := u1 (statusCode r.status) ++ replyFields r.body

/-! ## Reports (R182, section 11.4) -/

/-- A range of a CLIP report: a to b, or the whole of the train as two absent serials (log 34). -/
def rangeField : TrimRange → List Byte
  | .serials a b => u4 a ++ u4 b
  | .wholeTrain => u4 0xFFFFFFFF ++ u4 0xFFFFFFFF

/-- The fields of a report, in the order its raising rule lists them. The bound of EDGE_HOLD is one byte, lo 0 and hi 1,
by the model's choice (R83, R182, log 34). The CLIP/DELETED of a cleared bank carries its bank and two counts, and no
clip id (R143). -/
def reportFields : ReportBody → List Byte
  | .stateChanged c before after src serial cause =>
    u1 c.val ++ u1 (transportCode before) ++ u1 (transportCode after) ++ sourceField src ++ u4 serial ++
      u1 (causeCode cause)
  | .keyRefused p c code st => u1 p.val ++ u1 c.val ++ [code] ++ u1 (statusCode st)
  | .edgeHold c hi serial => u1 c.val ++ flag1 hi ++ u4 serial
  | .pushed c x a b => u1 c.val ++ u1 x.val ++ u4 a ++ u4 b
  | .holeSkipped c x a b => u1 c.val ++ u1 x.val ++ u4 a ++ u4 b
  | .caughtUp c x e => u1 c.val ++ u1 x.val ++ u4 e
  | .followLost f l x serial reason =>
    u1 f.val ++ u1 l.val ++ u1 x.val ++ u4 serial ++ u1 (reasonCode reason)
  | .committed c id n x st => u1 c.val ++ u2 id ++ u1 n ++ u1 x.val ++ u1 (clipStateCode st)
  | .trimmed id x r st changes =>
    u2 id ++ u1 x.val ++ rangeField r ++ u1 (clipStateCode st) ++
      counted (fun ic => u1 ic.1 ++ u1 (caseCode ic.2)) changes
  | .lost id x r st => u2 id ++ u1 x.val ++ rangeField r ++ u1 (clipStateCode st)
  | .deleted id bank st n => u2 id ++ u1 bank ++ u1 (clipStateCode st) ++ u1 n
  | .bankCleared bank removed kept => u1 bank ++ u1 removed ++ u1 kept
  | .stalled x => u1 x.val
  | .resumed x e => u1 x.val ++ u2 e
  | .discontinuity x serial label expected replaced =>
    u1 x.val ++ u4 serial ++ timeField (some label) ++ timeField (some expected) ++ flag1 replaced
  | .mapFull x removed oldest => u1 x.val ++ u4 removed ++ u4 oldest
  | .serialLimit x => u1 x.val
  | .appended c id outcome size => u1 c.val ++ u2 id ++ u1 (outcomeCode outcome) ++ u2 size
  | .recorded k object time count => u1 (faultBit k) ++ optional 1 u1 object ++ u4 time ++ u2 count

/-- The body of a REPORT: class, kind, queued priority, time of raising, then its fields. -/
def reportBytes (r : Report) : List Byte :=
  u1 (classIndex r.body.cls).val ++ u1 (reportKind r.body) ++ u1 r.priority ++ u4 r.time ++ reportFields r.body

/-! ## Frames (Table 11-1) -/

/-- A record framed: start character, length, kind, tag, body, CRC high byte first. -/
def frame (kind tag : Byte) (body : List Byte) : List Byte :=
  let content := u2 (body.length + 2) ++ kind :: tag :: body
  startChar :: content ++ u2 (crc16 content).toNat

/-- The bytes the control lane carries for a record: a REPORT carries tag 0 (R193). -/
def controlFrame : ControlRecord → List Byte
  | .reply r => frame r.kind r.tag (replyBytes r)
  | .report r => frame 0xF0 0 (reportBytes r)

/-- The bytes the ingest lane carries for an answer and the tag of the record it answers. -/
def ingestFrame (a : Byte × IngestAnswer) : List Byte := frame (ingestRecord a.2).1 a.1 (ingestRecord a.2).2

/-- The bytes the playout lane carries for a present and its request's tag. -/
def playoutFrame (a : Byte × Present) : List Byte := frame 0x98 a.1 (presentBody a.2)

/-- The bytes a panel lane carries for an echo, tag 0. -/
def echoFrame (e : Echo) : List Byte := frame 0xA8 0 (echoBody e)

end Sys2Proof.Machine
end

