-- ==== Sys2Proof/Safety.lean ====
section
/-! DEFINITION. The terms the statements use: when the port takes a command at once, what an answer looks like, the
device's laws over a state, and bytes fed to a receiver. -/

namespace Sys2Proof.Machine

/-! ## Commands and their answers -/

/-- The command port takes command i from state u and carries it out on state s (R178, R179): either nothing waits
and a place is free, and the command comes and goes to its block at once; or it is the oldest command waiting, and it
leaves the waiting part of the buffer. -/
def State.takes (u : State) (i : Instr) (s : State) : Prop :=
  u.resetAsserted = false ∧
    ((u.port.waiting = [] ∧ u.port.placesHeld < 4 ∧ s = u) ∨
      ∃ rest, u.port.waiting = i :: rest ∧ s = { u with port := { u.port with waiting := rest } })

/-- Command i on state s has the effect that leaves t, and then every idle lane begins what it has to send, which
`Obligations.LanesSendInOrder` states (R113, R181, R192). -/
abbrev Leaves (i : Instr) (s t : State) : Prop := exec i s = .next t.startLanes

/-- Command i, met in state u, is answered OK with this body after the effect that leaves t (R180). -/
abbrev Accepted (i : Instr) (kind tag : Byte) (u t : State) (body : ReplyBody) : Prop :=
  Leaves i u (t.formReply kind tag .ok body false)

/-- Command i, met in state u and carried out on state s, is refused with this status: the reply is set waiting, and
nothing else changes (R180). -/
abbrev TurnedAway (i : Instr) (kind tag : Byte) (u s : State) (st : Status) : Prop :=
  Leaves i u (s.formReply kind tag st .empty false)

/-! ## Frames -/

/-- Trains, anchor lists, lock counts and the timebase are unchanged. -/
abbrev State.keepsStore (s t : State) : Prop :=
  t.trains = s.trains ∧ t.maps = s.maps ∧ t.locks = s.locks ∧ t.timebase = s.timebase

/-- The clip table and the guards are unchanged. -/
abbrev State.keepsClips (s t : State) : Prop := t.clips = s.clips ∧ t.guards = s.guards

/-- The fault record and the alarm are unchanged. -/
abbrev State.keepsFaults (s t : State) : Prop := t.faults = s.faults ∧ t.alarm = s.alarm

/-- The command port, the answer lanes, the receivers, internal time, the reset input and the queue of waiting
commands are unchanged. -/
abbrev State.keepsLinks (s t : State) : Prop :=
  t.port = s.port ∧ t.ingest = s.ingest ∧ t.playout = s.playout ∧ t.receivers = s.receivers ∧ t.time = s.time ∧
    t.resetAsserted = s.resetAsserted ∧ t.pending = s.pending

/-- Every channel but c, and every play queue and session but c's, is unchanged. -/
abbrev State.keepsOthers (s t : State) (c : ChannelId) : Prop :=
  ∀ d, d ≠ c → t.channel d = s.channel d ∧ t.queue d = s.queue d

/-- The jog counts a channel holds after it has left its state for one that is not JOG (R46). -/
def Channel.jogLeft (ch : Channel) : Int := if ch.state = .jog then 0 else ch.jogAcc

/-- The run log of t is that of s with these entries appended in order, the oldest beyond 256 discarded and the overrun
flag set with them (R175). -/
def State.logged (s t : State) (added : List RunEntry) : Prop :=
  let log := s.runLog.entries ++ added
  t.runLog = ⟨log.drop (log.length - 256), s.runLog.overrun || decide (256 < log.length)⟩

/-- The run log entries of the open sessions of these channels, in order, each ended with outcome o (R174, R175). -/
def State.endedOn (s : State) (o : RunOutcome) (cs : List ChannelId) : List RunEntry :=
  cs.flatMap fun c => (s.queue c).session.toList.map fun r =>
    ⟨c, r.clip, r.train, o, r.firstCount, r.lastCount, r.presented⟩

/-- The RUNLOG/APPENDED reports of these entries appended in order to a run log of a size, each with the size it leaves
(R175). -/
def appendReports : Nat → List RunEntry → List ReportBody
  | _, [] => []
  | size, e :: rest =>
    .appended e.channel e.clip e.outcome (min 256 (size + 1)) :: appendReports (min 256 (size + 1)) rest

/-- The open session of channel c, if there is one, has been ended with outcome o and written to the run log as its one
new entry, and queue play has ended (R73, R172, R174, R175). -/
def State.programmeCut (s t : State) (c : ChannelId) (o : RunOutcome) : Prop :=
  (t.queue c).entries = (s.queue c).entries ∧ (t.queue c).playing = false ∧
    ((s.queue c).session = none → t.runLog = s.runLog) ∧
    (s.runLog.entries.length ≤ 256 → s.logged t (s.endedOn o [c]))

/-- TRANSPORT/STATE_CHANGED for the change of channel c's record from that of s to new, with its cause: one report
where the state or the source has changed, and none where neither has (R70). -/
def State.changeReport (s : State) (c : ChannelId) (new : Channel) (cause : Cause) : List ReportBody :=
  if (s.channel c).state = new.state ∧ (s.channel c).source = new.source then []
  else [.stateChanged c (s.channel c).state new.state ⟨new.source, s.sourceTrain new.source⟩ (new.head / 1200) cause]

/-- The reports of a programme cut short on channel c and of the change that cuts it: RUNLOG/APPENDED for the session
ended, and then TRANSPORT/STATE_CHANGED with its cause (R70, R175). -/
def State.cutReports (s : State) (c : ChannelId) (new : Channel) (cause : Cause) : List ReportBody :=
  appendReports s.runLog.entries.length (s.endedOn .cutShort [c]) ++ s.changeReport c new cause

/-- The reports of channels whose programme is aborted one after the other, from a run log of a size: RUNLOG/APPENDED
where a session was open, and then the channel's own report (R70, R175). -/
def State.abortReports (s : State) (changed : ChannelId → ReportBody) : Nat → List ChannelId → List ReportBody
  | _, [] => []
  | size, c :: rest =>
    let ended := s.endedOn .aborted [c]
    appendReports size ended ++ changed c :: s.abortReports changed (min 256 (size + ended.length)) rest

/-- The report unit of t is that of s after these reports are raised in order (R182, R183). -/
def State.raised (s t : State) (bodies : List ReportBody) : Prop := t.reports = (bodies.foldl State.raise s).reports

/-- A session record as a session opens with (R174). -/
def freshSession (clip : Nat) (x : TrainId) : Session :=
  { clip := clip, train := x, firstCount := none, lastCount := none, presented := 0 }

/-! ## Laws of the device -/

/-- The bounds of what the device queues and counts: 4 places in the command buffer and 8 waiting OVERLOAD replies
(R178), 64 reports (R183), 256 run log entries (R175), 65,535 faults (R185). -/
abbrev State.bounded (s : State) : Prop :=
  s.port.placesHeld ≤ 4 ∧ s.port.overloads ≤ 8 ∧ s.reports.queue.length ≤ 64 ∧ s.runLog.entries.length ≤ 256 ∧
    s.faults.count ≤ 65535

/-- The one speed that the states other than PLAYING and SHUTTLE allow: 0 in IDLE, CUED, JOG and FOLLOWING, 1200 in LIVE
(R69, Table 4-1); State.speedLaw has the range of the other two. -/
def Channel.speedsFit (ch : Channel) : Prop :=
  match ch.state with
  | .playing => True
  | .shuttle => True
  | .live => ch.speed = 1200 ∧ ch.target = 1200
  | _ => ch.speed = 0 ∧ ch.target = 0

/-- Every channel's speeds fit its state. -/
def State.speedsFit (s : State) : Prop := ∀ c, (s.channel c).speedsFit

/-- A channel's role is FOLLOWER. -/
def Channel.isFollower (ch : Channel) : Bool :=
  match ch.role with
  | .follower _ => true
  | _ => false

/-- The source is TRAIN. -/
def Source.isTrain : Source → Bool
  | .train _ => true
  | _ => false

/-- The law of gangs (R155): a channel in FOLLOWING is the second of its pair and plays a train outside queue play; a
channel is in FOLLOWING exactly when its role is FOLLOWER; and the first of a pair is LEADER exactly when the second is
FOLLOWER. -/
def State.gangLaw (s : State) : Prop :=
  (∀ c, ((s.channel c).state = .following ↔ (s.channel c).isFollower = true) ∧
    ((s.channel c).state = .following →
      (leaderOf c).isSome = true ∧ (s.channel c).source.isTrain = true ∧ (s.queue c).playing = false) ∧
    ((s.channel c).role = .leader → (followerOf c).isSome = true)) ∧
  ∀ l f, followerOf l = some f → ((s.channel l).role = .leader ↔ (s.channel f).isFollower = true)

/-- The law of a train's chain (R2, R3, R24): entries ordered by first serial with ranges that do not overlap and no
extent twice; every entry but the current one holds 1 to 64 frames; the current entry ends at the serial counter; the
reserved extent is not in the chain; a frame is in flight only in RECORDING; a recording train has room in its current
extent, and a stalled one has none. -/
def Train.chainLaw (t : Train) : Prop :=
  t.chain.Pairwise (fun a b => a.first + a.fill ≤ b.first ∧ a.extent ≠ b.extent) ∧
  (∀ e ∈ t.chain, e.fill ≤ 64 ∧ e.first + e.fill ≤ t.serialCounter ∧ t.reserved ≠ some e.extent) ∧
  (∀ e ∈ t.chain.dropLast, 1 ≤ e.fill) ∧
  (∀ e, t.current = some e → e.first + e.fill = t.serialCounter) ∧
  (t.inFlight.isSome = true → t.state = .recording) ∧
  match t.state with
  | .unconfigured => t.chain = []
  | .idle => True
  | .recording => ∃ e, t.current = some e ∧ e.fill < 64
  | .stalled => ∀ e, t.current = some e → e.fill = 64

/-- The law of pools (R1): a train has a pool exactly when it is configured, a pool holds 4 or more extents of the
store, and no extent lies in two pools. -/
def State.poolLaw (s : State) : Prop :=
  (∀ x, (s.train x).state = .unconfigured ↔ (s.train x).pool = none) ∧
  (∀ x p, (s.train x).pool = some p → 4 ≤ p.count ∧ p.first + p.count ≤ Config.extents) ∧
  ∀ x y p q e, x ≠ y → (s.train x).pool = some p → (s.train y).pool = some q →
    ¬(p.contains e = true ∧ q.contains e = true)

/-- The chain law of every train, and the law of pools. -/
def State.trainLaw (s : State) : Prop := (∀ x, (s.train x).chainLaw) ∧ s.poolLaw

/-- The forms of the tables: lock counts in their canonical form (R26), clips with distinct ids below 1024 in ascending
order (R130), and no channel bound to two panels (R97). -/
def State.tableLaw (s : State) : Prop :=
  locksWf s.locks = true ∧ (s.clips.map (·.id)).Pairwise (· < ·) ∧ (∀ k ∈ s.clips, k.id < 1024) ∧
    ∀ p q c, (s.panel p).binding = some c → (s.panel q).binding = some c → p = q

/-- No outgoing lane stands idle while something waits for it (R113, R181, R192). -/
def State.lanesRunning (s : State) : Prop :=
  (s.port.sending = none → s.port.replies = [] ∧ s.reports.queue = []) ∧
  (s.ingest.sending = none → s.ingest.waiting = []) ∧ (s.playout.sending = none → s.playout.waiting = []) ∧
  ∀ p, (s.panel p).sending = none → (s.panel p).pendingEcho = none

/-- A speed within the range of speeds, −38,400 to +38,400 su (R44, R69). -/
abbrev inSpeedRange (v : Int) : Prop := -38400 ≤ v ∧ v ≤ 38400

/-- The law of speeds (R53, R69), with what feeds it: C and T of every channel lie in the range of speeds and its A in
1 to 38,400; so do the play speeds of clips and queue entries (R130, R164), the bounce speeds, from 1 (R147), and the
points of every shuttle curve, which keeps the rules of R99. -/
def State.speedLaw (s : State) : Prop :=
  (∀ c, inSpeedRange (s.channel c).speed ∧ inSpeedRange (s.channel c).target ∧ 1 ≤ (s.channel c).accel ∧
    (s.channel c).accel ≤ 38400) ∧
  (∀ k ∈ s.clips, (∀ v, k.speed = some v → inSpeedRange v) ∧
    ∀ b, k.bounce = some b → 1 ≤ b.forwardSpeed ∧ b.forwardSpeed ≤ 38400 ∧ 1 ≤ b.reverseSpeed ∧
      b.reverseSpeed ≤ 38400) ∧
  (∀ c, ∀ e ∈ (s.queue c).entries, ∀ v, e.speed = some v → inSpeedRange v) ∧
  ∀ p, (s.panel p).curve.head? = some ⟨0, 0⟩ ∧ (s.panel p).curve.getLast?.map (·.lever) = some 1000 ∧
    (s.panel p).curve.Pairwise (fun m n => m.lever < n.lever ∧ m.speed ≤ n.speed) ∧
    ∀ q ∈ (s.panel p).curve, q.speed ≤ 38400

/-- The law of the play queues (R164): a queue holds at most 32 entries, and in queue play the entry at index 0 is the
entry being played: there is one, and its clip is the channel's CLIP source. -/
def State.queueLaw (s : State) : Prop :=
  ∀ c, (s.queue c).entries.length ≤ 32 ∧
    ((s.queue c).playing = true →
      ∃ e rest index, (s.queue c).entries = e :: rest ∧ (s.channel c).source = .clip e.clip index)

/-- All the laws of the device stated here. -/
def State.lawful (s : State) : Prop :=
  s.bounded ∧ s.queueLaw ∧ s.speedsFit ∧ s.speedLaw ∧ s.gangLaw ∧ s.trainLaw ∧ s.tableLaw ∧ s.lanesRunning

/-! ## What a channel command leaves alone -/

/-- What a change of channel c's state does to the panels (R111): the panel bound to it becomes DISARMED when it was
LOST and the channel has left SHUTTLE; nothing else changes. -/
def State.panelsLeft (s t : State) (c : ChannelId) : Prop :=
  s.tableLaw → ∀ p, t.panel p =
    if (s.panel p).binding = some c ∧ (s.panel p).arm = .lost ∧ (s.channel c).state = .shuttle ∧
      (t.channel c).state ≠ .shuttle then { s.panel p with arm := .disarmed } else s.panel p

/-- What a channel command leaves alone: everything but its own channel and queue, the panel it disarms, the reports
and the run log. -/
abbrev State.channelFrame (s t : State) (c : ChannelId) : Prop :=
  s.keepsStore t ∧ s.keepsClips t ∧ s.keepsFaults t ∧ s.keepsLinks t ∧ s.keepsOthers t c ∧ s.panelsLeft t c ∧
    t.freeReads = s.freeReads

/-! ## Power-on values -/

/-- The train records, anchor lists, lock counts and the timebase at their power-on values (Table 1-2, R26, R29,
R35). -/
def State.storeCleared (s : State) : Prop :=
  (∀ x, s.train x = {
      state := .unconfigured, multiple := 1, pool := none, chain := [], cursor := none,
      reserved := none, serialCounter := 0, inFlight := none, firstFrame := false } ∧
    s.map x = { anchors := [], lastLabel := none }) ∧
  s.locks = [] ∧ s.timebase = { rate := 50, drop := false }

/-- The channel records, play queues and sessions at the values every reset gives them (Table 3-1, R164, R175). -/
def State.playbackCleared (s : State) : Prop :=
  ∀ c, s.channel c = {
      state := .idle, source := .noSource, head := 0, speed := 0, target := 0, accel := 120,
      blend := true, endAction := .stop, liveDelay := 0, bounce := none, markIn := none, markOut := none,
      targetBank := c.castLE (by decide), angleGroup := [], role := .noGang, jogAcc := 0, edgeHold := false,
      lastServed := none, lastPresent := none } ∧
    s.queue c = { entries := [], playing := false, session := none }

/-- The panel records at their power-on values, at a reset taken at a time (Table 5-1). -/
def State.panelsCleared (s : State) (now : Nat) : Prop :=
  ∀ p, (s.panel p).binding = none ∧
    (s.panel p).curve = [⟨0, 0⟩, ⟨40, 0⟩, ⟨400, 600⟩, ⟨700, 1200⟩, ⟨900, 4800⟩, ⟨1000, 12000⟩] ∧
    (s.panel p).arm = .disarmed ∧ (s.panel p).silence = 250 ∧ (s.panel p).lastRecord = now ∧
    (s.panel p).pendingEcho = none

/-- The clip table, the guards and the run log at their power-on values (R130, R175). -/
def State.clipsCleared (s : State) : Prop :=
  s.clips = [] ∧ s.guards = Vector.replicate 16 false ∧ s.runLog = { entries := [], overrun := false }

/-- The report unit and the fault record at their power-on values (Table 10-4). -/
def State.reportsCleared (s : State) : Prop :=
  s.reports = {
    settings := #v[⟨true, 1⟩, ⟨true, 2⟩, ⟨true, 1⟩, ⟨true, 2⟩, ⟨true, 0⟩, ⟨true, 3⟩], queue := [],
    lost := Vector.replicate 6 false } ∧
  s.faults = { first := none, latest := none, count := 0 }

/-- The power-on values of the whole device (R190, R191, R194 and the tables above). -/
def State.powerOnValues (s : State) : Prop :=
  s.storeCleared ∧ s.playbackCleared ∧ s.panelsCleared 0 ∧ s.clipsCleared ∧ s.reportsCleared ∧
  s.port = { waiting := [], replies := [], sending := none } ∧
  s.alarm = { mask := 0x3F, holdTime := 500, line := .deasserted, hold := none } ∧
  s.time = 0 ∧
  (∀ l, (s.receiver l).state = .hunt ∧ (s.receiver l).held = []) ∧
  s.ingest.sending = none ∧ s.playout.sending = none ∧ ∀ p, (s.panel p).sending = none

/-! ## What a discard leaves, and what a ring search picks -/

/-- State t is what s becomes when the material of train x is discarded, for everything but the record of x (R6, R119,
R136, R163, R175). The anchor list is empty. Every present angle on x is not present, its clip's state derived again
and reported, LOST or TRIMMED, in id order. No mark lies on x. Every channel whose source lies on x goes to IDLE with no
source, its session logged ABORTED and its change reported, a follower leaving its gang and a LOST panel disarmed. All
else is unchanged. -/
def State.discarded (s t : State) (x : TrainId) : Prop :=
  let on := fun c => decide (s.sourceTrain (s.channel c).source = some x)
  let follows := fun c => on c && decide ((s.channel c).state = .following) && (leaderOf c).isSome
  let loses := fun g : Angle => g.present && decide (g.train = x)
  let after := fun k : Clip =>
    let angles := k.angles.map fun g => if loses g then { g with present := false } else g
    if k.angles.any loses then { k with angles := angles, state := clipStateOf angles } else k
  let ending := allChannels.filter on
  t.map x = { anchors := [], lastLabel := none } ∧
  (∀ y, y ≠ x → t.train y = s.train y ∧ t.map y = s.map y) ∧
  (s.tableLaw → t.clips = s.clips.map after) ∧
  (∀ c, t.channel c =
    let ch := s.channel c
    let kept : Channel := { ch with
      markIn := ch.markIn.filter (fun m => decide (m.train ≠ x))
      markOut := ch.markOut.filter (fun m => decide (m.train ≠ x))
      role := if follows c || (followerOf c).any follows then .noGang else ch.role }
    if on c then { kept with
      state := .idle, source := .noSource, head := 0, speed := 0, target := 0, bounce := none, edgeHold := false
      jogAcc := 0 }
    else kept) ∧
  (∀ c, t.queue c = if on c then { s.queue c with playing := false, session := none } else s.queue c) ∧
  (s.tableLaw → ∀ p, t.panel p =
    if (s.panel p).arm = .lost ∧ (s.panel p).binding.any (fun c => on c && decide ((s.channel c).state = .shuttle)) then
      { s.panel p with arm := .disarmed }
    else s.panel p) ∧
  (s.runLog.entries.length ≤ 256 → s.logged t (s.endedOn .aborted ending) ∧
    (s.tableLaw → s.raised t (
      ((s.clips.filter fun k => k.angles.any loses).map fun k =>
        if (after k).state = .lost then .lost k.id x .wholeTrain .lost
        else .trimmed k.id x .wholeTrain (after k).state
          (k.angles.zipIdx.filterMap fun gi => if loses gi.1 then some (gi.2, .discarded) else none)) ++
      s.abortReports (fun c => .stateChanged c (s.channel c).state .idle ⟨.noSource, none⟩ 0 .trainDiscard)
        s.runLog.entries.length ending))) ∧
  t.locks = s.locks ∧ t.timebase = s.timebase ∧ t.guards = s.guards ∧ s.keepsFaults t ∧ s.keepsLinks t ∧
  t.freeReads = s.freeReads

/-- State p is s after extent c of train x has been picked as a candidate (R20): a free extent leaves all as it is; a
retained one is reclaimed (R22), which `Obligations.ReclaimEffects` and `Obligations.ReclaimReachesClips` state. -/
def State.picks (s : State) (x : TrainId) (c : Nat) (p : State) : Prop :=
  ((∀ d ∈ (s.train x).chain, d.extent ≠ c) ∧ p = s) ∨ ∃ d ∈ (s.train x).chain, d.extent = c ∧ p = s.reclaim x d

/-! ## Queue loads -/

/-- Queue entry e can be loaded, on angle index i, which is entry g (R164). -/
def State.loads (s : State) (e : QueueEntry) (i : Nat) (g : Angle) : Prop :=
  ∃ k, s.clipOf e.clip = some k ∧ k.state ≠ .lost ∧ i = e.angle.getD k.primary ∧ k.angles[i]? = some g ∧
    g.present = true

/-- The speed an entry is played at: its own, else its clip's play speed, else 1200 (R164). -/
def State.speedOf (s : State) (e : QueueEntry) : Int :=
  e.speed.getD (((s.clipOf e.clip).bind (·.speed)).getD 1200)

/-- The bounce context a clip enters PLAYING with at target v (R87). -/
def State.contextOf (s : State) (clip : Nat) (v : Int) : Bounce :=
  { direction := if 0 ≤ v then .forward else .reverse
    passes := ((s.clipOf clip).bind (·.bounce)).bind fun b => if b.passes = 0 then none else some b.passes }

/-- The run log entries of queue entries skipped on channel c (R169, R175); the train of an angle that is not in the
table is 0 (log 21). -/
def State.skippedOn (s : State) (c : ChannelId) (es : List QueueEntry) : List RunEntry :=
  es.map fun e => ⟨c, e.clip,
    (((s.clipOf e.clip).bind fun k => k.angles[e.angle.getD k.primary]?).map (·.train)).getD 0, .skippedLost, none,
    none, 0⟩

/-! ## Serving a request -/

/-- A request of count `count` advances channel c by k served frames, from state s1 on (R50): the first by 1; a repeat
by 0; one that is up to 8 ahead by as many; one further ahead by 1, with fault PLAYOUT_GAP. -/
def State.advances (s : State) (c : ChannelId) (count k : Nat) (s1 : State) : Prop :=
  ((s.channel c).lastServed = none ∧ k = 1 ∧ s1 = s) ∨
  ∃ m d, (s.channel c).lastServed = some m ∧ m < 4294967296 ∧ d < 4294967296 ∧ count = (m + d) % 4294967296 ∧
    ((d ≤ 8 ∧ k = d ∧ s1 = s) ∨ (8 < d ∧ k = 1 ∧ s1 = s.recordFault .playoutGap (some c.val)))

/-- The forward snap from serial n goes to serial dest: the first serial of the first chain entry that begins above n,
and hi when there is none or it lies above hi (R48). -/
def Train.snapsForward (t : Train) (hi n dest : Nat) : Prop :=
  ((∀ e ∈ t.chain, e.first ≤ n) ∧ dest = hi) ∨
  ∃ pre e post, t.chain = pre ++ e :: post ∧ (∀ d ∈ pre, d.first ≤ n) ∧ n < e.first ∧ dest = min e.first hi

/-- The backward snap from serial n goes to serial dest: the last frame of the last chain entry whose last frame lies
below n, and lo when there is none or it lies below lo (R48). -/
def Train.snapsBackward (t : Train) (lo n dest : Nat) : Prop :=
  ((∀ e ∈ t.chain, 0 < e.fill → n ≤ e.first + e.fill - 1) ∧ dest = lo) ∨
  ∃ pre e post, t.chain = pre ++ e :: post ∧ (∀ d ∈ post, 0 < d.fill → n ≤ d.first + d.fill - 1) ∧ 0 < e.fill ∧
    e.first + e.fill - 1 < n ∧ dest = max (e.first + e.fill - 1) lo

/-- A head brought into the bounds lo to hi, given as serials (R55, R60). -/
def clampedHead (lo hi : Nat) (h : Int) : Nat :=
  if (hi : Int) * 1200 < h then hi * 1200 else if h < (lo : Int) * 1200 then lo * 1200 else h.toNat

/-- A head moved onto a retained frame: kept, with no hole skipped, where its frame is retained; and taken to serial
dest where it is not, with the serials a HOLE_SKIPPED report gives (R48, R56). -/
def Train.lands (t : Train) (b h dest : Nat) (hop : Option (Nat × Nat)) : Prop :=
  (t.retained (b / 1200) = true → h = b ∧ hop = none) ∧
  (t.retained (b / 1200) = false → h = dest * 1200 ∧ hop = if h = b then none else some (b / 1200, dest))

/-- Settling at speed C takes a head to h (R60): it is clamped to the bounds, and out of a hole it snaps forward with C
above 0, backward with C below 0, and with C at 0 forward to a frame before hi, or else backward (log 19). -/
def Train.settles (t : Train) (lo hi head : Nat) (speed : Int) (h : Nat) (hop : Option (Nat × Nat)) : Prop :=
  let b := clampedHead lo hi head
  ∃ dest, t.lands b h dest hop ∧
    (0 < speed → t.snapsForward hi (b / 1200) dest) ∧ (speed < 0 → t.snapsBackward lo (b / 1200) dest) ∧
    (speed = 0 → ∃ fore, t.snapsForward hi (b / 1200) fore ∧
      (fore < hi → dest = fore) ∧ (hi ≤ fore → t.snapsBackward lo (b / 1200) dest))

/-- The reports of a snap: EDGE/HOLE_SKIPPED when the head was moved (R48). -/
def holeReports (c : ChannelId) (x : TrainId) (hop : Option (Nat × Nat)) : List ReportBody :=
  hop.toList.map fun n => .holeSkipped c x n.1 n.2

/-- The speed one ramp step after v, for a channel's target and acceleration (R53). -/
def Channel.rampedFrom (ch : Channel) (v : Int) : Int :=
  if v < ch.target then min (v + ch.accel) ch.target
  else if ch.target < v then max (v - ch.accel) ch.target
  else v

/-- Channel c's head, on train x between lo and hi, has been left in a hole or beyond a bound of its clip (R66, R79,
R140, R151, log 38). -/
def State.leftOff (s : State) (c : ChannelId) (x : TrainId) (lo hi : Nat) : Prop :=
  let h := (s.channel c).head
  (lo ≤ h / 1200 ∧ h / 1200 ≤ hi ∧ (s.train x).retained (h / 1200) = false) ∨
    ((∃ id i, (s.channel c).source = .clip id i) ∧ (hi * 1200 < h ∨ h < lo * 1200))

/-- The ramp and the step of one sub-step take channel c's head, on train x between lo and hi, to h, with the hole
skipped and the bound reached on the way (R53 to R56). The head steps by C × M, is clamped, and snaps out of a hole in
the direction of travel. A bound is reached by a step to it or beyond, and by a snap that ends at it (log 20). -/
def State.moves (s : State) (c : ChannelId) (x : TrainId) (lo hi h : Nat) (hop : Option (Nat × Nat))
    (reached : Option Direction) : Prop :=
  let ch := s.channel c
  let r := s.train x
  let v := ch.rampedFrom ch.speed
  let m : Int := ch.head + v * r.multiple
  let b := clampedHead lo hi m
  ∃ dest, r.lands b h dest hop ∧
    (0 ≤ v → r.snapsForward hi (b / 1200) dest) ∧ (v < 0 → r.snapsBackward lo (b / 1200) dest) ∧
    (reached = some .forward ↔
      0 < v ∧ ((hi : Int) * 1200 ≤ m ∨ (r.retained (b / 1200) = false ∧ dest = hi))) ∧
    (reached = some .reverse ↔
      v < 0 ∧ (m ≤ (lo : Int) * 1200 ∨ (r.retained (b / 1200) = false ∧ dest = lo)))

/-- A sub-step of channel c from s has left t: the channel, its queue, the entries logged, the reports raised and the
arm state of its panel are as given, and all else is unchanged. -/
def State.subStepped (s t : State) (c : ChannelId) (new : Channel) (queue : PlayQueue) (log : List RunEntry)
    (arm : ArmState → ArmState) (bodies : List ReportBody) : Prop :=
  t.channel c = new ∧ t.queue c = queue ∧ s.logged t log ∧ s.raised t bodies ∧ s.keepsOthers t c ∧ s.keepsStore t ∧
  s.keepsClips t ∧ s.keepsFaults t ∧ s.keepsLinks t ∧ t.freeReads = s.freeReads ∧
  (∀ q, (s.panel q).binding ≠ some c → t.panel q = s.panel q) ∧
  (s.tableLaw → ∀ q, (s.panel q).binding = some c → t.panel q = { s.panel q with arm := arm (s.panel q).arm })

/-- The frames a FRAME present shows for a head h on train x under a highest serial hi (R61 to R63): with blend, the
head's frame and, where the weight is 1 or more and the next frame may be shown, the next one; without, the nearer of
the two that may be shown, alone. -/
def State.shows (s : State) (c : ChannelId) (x : TrainId) (hi h : Nat) (f : FrameShown) : Prop :=
  f.train = x ∧ f.timecode = s.fieldAt x f.serial ∧ (s.train x).pageOf f.serial = some f.primary ∧
  ((s.channel c).blend = true → f.serial = h / 1200 ∧
    let w := h % 1200 * 256 / 1200
    let two := 1 ≤ w ∧ (s.train x).retained (h / 1200 + 1) = true ∧ h / 1200 + 1 ≤ hi
    (two → f.secondary = (s.train x).pageOf (h / 1200 + 1) ∧ f.weight = w) ∧
    (¬two → f.secondary = none ∧ f.weight = 0)) ∧
  ((s.channel c).blend = false → f.secondary = none ∧ f.weight = 0 ∧
    let r := (h + 600) / 1200
    (r ≤ hi → (s.train x).retained r = true → f.serial = r) ∧
    (hi < r ∨ (s.train x).retained r = false → f.serial = h / 1200))

/-- Serving a request of channel c from s has answered present p and left t, for all but the channel, its queue, the
run log, the reports and the fault record: the present is formed on the playout lane and kept on the channel, the panel
bound to the channel has its echo readied with the arm state the request leaves it in, and all else is unchanged (R65,
R112). -/
def State.serves (s t : State) (c : ChannelId) (tag : Byte) (p : Present) (arm : ArmState → ArmState) : Prop :=
  t.playout = { s.playout with waiting := s.playout.waiting ++ [(tag, p)] } ∧ (t.channel c).lastPresent = some p ∧
  s.keepsOthers t c ∧ s.keepsStore t ∧ s.keepsClips t ∧ t.port = s.port ∧ t.ingest = s.ingest ∧
  t.receivers = s.receivers ∧ t.time = s.time ∧ t.resetAsserted = s.resetAsserted ∧ t.pending = s.pending ∧
  t.freeReads = s.freeReads ∧
  (∀ q, (s.panel q).binding ≠ some c → t.panel q = s.panel q) ∧
  (s.tableLaw → ∀ q, (s.panel q).binding = some c → t.panel q = { s.panel q with
    arm := arm (s.panel q).arm
    pendingEcho := some {
      channel := c, state := p.state, speed := p.speed, timecode := p.frame.bind (·.timecode)
      clip := match (t.channel c).source with
        | .clip id _ => some id
        | _ => none
      arm := arm (s.panel q).arm } })

/-- A session record that has counted a present of this count (R174). -/
def Session.counted (r : Session) (count : Nat) : Session :=
  { r with firstCount := some (r.firstCount.getD count), lastCount := some count, presented := r.presented + 1 }

/-- The open session of channel c has room to count one more present (R174, log 17). -/
def State.roomLeft (s : State) (c : ChannelId) : Prop :=
  ∀ r, (s.queue c).session = some r → r.presented < 4294967295

/-- The run log entry of channel c's open session, ended COMPLETE by a request of this count, which it counts (R174). -/
def State.completedBy (s : State) (c : ChannelId) (count : Nat) : List RunEntry :=
  (s.queue c).session.toList.map fun r =>
    ⟨c, r.clip, r.train, .complete, (r.counted count).firstCount, (r.counted count).lastCount,
      (r.counted count).presented⟩

/-- Channel c's queue with its open session, if there is one, having counted this present. -/
def State.countedQueue (s : State) (c : ChannelId) (count : Nat) : PlayQueue :=
  { s.queue c with session := (s.queue c).session.map (·.counted count) }

/-! ## Bodies of commands -/

/-- The body length of each command kind that carries no list (R193; the lengths are those of log 9). -/
def fixedLength : Nat → Option Nat
  | 0x10 => some 6 | 0x11 => some 1 | 0x12 => some 1 | 0x13 => some 1 | 0x14 => some 2 | 0x15 => some 2
  | 0x20 => some 5 | 0x21 => some 2 | 0x22 => some 1 | 0x23 => some 6 | 0x24 => some 5 | 0x25 => some 1
  | 0x26 => some 11 | 0x27 => some 6 | 0x28 => some 5 | 0x29 => some 2 | 0x2A => some 2 | 0x2B => some 2
  | 0x30 => some 2 | 0x31 => some 1 | 0x32 => some 2 | 0x33 => some 1
  | 0x38 => some 2 | 0x3A => some 1 | 0x3B => some 5
  | 0x40 => some 1 | 0x41 => some 1 | 0x42 => some 1 | 0x43 => some 1
  | 0x48 => some 2 | 0x49 => some 2 | 0x4A => some 11 | 0x4B => some 2 | 0x4C => some 1 | 0x4D => some 0
  | 0x4E => some 1 | 0x4F => some 1 | 0x50 => some 19 | 0x51 => some 3 | 0x52 => some 19 | 0x53 => some 2
  | 0x54 => some 2
  | 0x58 => some 12 | 0x59 => some 2 | 0x5A => some 1 | 0x5B => some 2 | 0x5C => some 1 | 0x5D => some 1
  | 0x5E => some 1 | 0x5F => some 0
  | 0x61 => some 2 | 0x62 => some 0 | 0x63 => some 0 | 0x64 => some 5 | 0x65 => some 1
  | _ => none

/-! ## Links -/

/-- An answer lane that is l begins its oldest answer, if it has one, and is then m (R192). -/
def Lane.begins {α : Type} (l m : Lane α) : Prop :=
  (∀ a rest, l.waiting = a :: rest → m = { waiting := rest, sending := some a }) ∧
  (l.waiting = [] → m = { waiting := [], sending := none })

/-- A run of bytes examined from HUNT: the records taken, in order, and the state and the bytes the receiver is left
with (R191). Up to the first start character all bytes are passed. From it on they are an attempt still in its header
or still collecting; an attempt that fails its length or its CRC, after which the search goes on from the byte after
that start character; or a whole record, after which it goes on from the byte after the CRC. -/
inductive Examined : List Byte → List Record → ReceiverState → List Byte → Prop
  | passed {bs} : 0xC5 ∉ bs → Examined bs [] .hunt []
  | header {pre post} : 0xC5 ∉ pre → post.length ≤ 1 → Examined (pre ++ 0xC5 :: post) [] .header (0xC5 :: post)
  | collecting {pre l1 l2 more} : 0xC5 ∉ pre → 2 ≤ l1.toNat * 256 + l2.toNat → l1.toNat * 256 + l2.toNat ≤ 252 →
      more.length < l1.toNat * 256 + l2.toNat + 2 →
      Examined (pre ++ 0xC5 :: l1 :: l2 :: more) [] .collect (0xC5 :: l1 :: l2 :: more)
  | badLength {pre l1 l2 more records st held} : 0xC5 ∉ pre →
      l1.toNat * 256 + l2.toNat < 2 ∨ 252 < l1.toNat * 256 + l2.toNat →
      Examined (l1 :: l2 :: more) records st held → Examined (pre ++ 0xC5 :: l1 :: l2 :: more) records st held
  | badCrc {pre l1 l2 content hi lo more records st held} : 0xC5 ∉ pre → 2 ≤ content.length → content.length ≤ 252 →
      content.length = l1.toNat * 256 + l2.toNat → crc16 (l1 :: l2 :: content) ≠ hi ++ lo →
      Examined (l1 :: l2 :: (content ++ hi :: lo :: more)) records st held →
      Examined (pre ++ 0xC5 :: l1 :: l2 :: (content ++ hi :: lo :: more)) records st held
  | taken {pre kind tag body rest records st held} : 0xC5 ∉ pre → body.length ≤ 250 → Examined rest records st held →
      Examined (pre ++ frame kind tag body ++ rest) (⟨kind, tag, body⟩ :: records) st held

/-- Bytes arriving one after the other on a link's receive lane. -/
def feed (l : Link) : List Byte → State → Result
  | [], s => .next s
  | b :: bs, s =>
    match exec (.receivedByte l b) s with
    | .next t => feed l bs t
    | other => other

end Sys2Proof.Machine
end

