-- ==== Sys2Proof/WellFormed.lean ====
section
/-! DEFINITION. Which commands a record can carry: list lengths and names that fit a body of at most 250 bytes
(Table 11-1), kinds outside the command kinds (Table 11-2), and bodies that can hold a byte outside its listed values
(R193). -/

namespace Sys2Proof

/-- The command kinds of Table 11-2. -/
def commandKind (k : Byte) : Bool :=
  let n := k.toNat
  decide ((0x10 ≤ n ∧ n ≤ 0x15) ∨ (0x20 ≤ n ∧ n ≤ 0x2C) ∨ (0x30 ≤ n ∧ n ≤ 0x33) ∨ (0x38 ≤ n ∧ n ≤ 0x3B) ∨
    (0x40 ≤ n ∧ n ≤ 0x43) ∨ (0x48 ≤ n ∧ n ≤ 0x54) ∨ (0x58 ≤ n ∧ n ≤ 0x65))

/-- A body that has no presence, mode, flag, enumeration or name length byte is never answered for one. -/
def Sent.plain {α : Type} : Sent α → Bool
  | .badByte => false
  | _ => true

/-- A body whose fields meet a check; BAD_LENGTH and BAD_VALUE bodies carry no fields. -/
def Sent.check {α : Type} (p : α → Bool) : Sent α → Bool
  | .fields a => p a
  | _ => true

/-- The command is one that a record can carry. -/
def Instr.wellFormed : Instr → Bool
  | .powerOnReset => true
  | .resetInputRelease => true
  | .commandArrival _ _ body => decide (body.length ≤ 250)
  | .unknownKind kind _ => !commandKind kind
  | .configureTrain _ a => a.plain
  | .releaseTrain _ a => a.plain
  | .startTrain _ a => a.plain
  | .stopTrain _ a => a.plain
  | .timebase _ _ => true
  | .queryAnchors _ a => a.plain
  | .loadClip _ _ => true
  | .selectTrain _ a => a.plain
  | .unload _ a => a.plain
  | .play _ _ => true
  | .setSpeed _ a => a.plain
  | .pause _ a => a.plain
  | .goto _ _ => true
  | .live _ _ => true
  | .setAccel _ a => a.plain
  | .setBlend _ _ => true
  | .setEndAction _ _ => true
  | .setTargetBank _ a => a.plain
  | .setAngleGroup _ a => a.plain && a.check fun g => decide (g.trains.length ≤ 248)
  | .angle _ a => a.plain
  | .angleNext _ a => a.plain
  | .gang _ a => a.plain
  | .ungang _ a => a.plain
  | .bind _ a => a.plain
  | .setCurve _ a => a.plain && a.check fun g => decide (g.points.length ≤ 41)
  | .queryCurve _ a => a.plain
  | .setSilence _ a => a.plain
  | .markIn _ a => a.plain
  | .markOut _ a => a.plain
  | .clearMarks _ a => a.plain
  | .take _ a => a.plain
  | .lockClip _ a => a.plain
  | .unlockClip _ a => a.plain
  | .trimClip _ a => a.plain
  | .deleteClip _ a => a.plain
  | .clearBank _ a => a.plain
  | .clearAll _ a => a.plain
  | .guardBank _ a => a.plain
  | .unguardBank _ a => a.plain
  | .rename _ a => a.check fun r => decide (r.name.length ≤ 16)
  | .rate _ a => a.plain
  | .setClipPlay _ _ => true
  | .queryClip _ a => a.plain
  | .listBank _ a => a.plain
  | .queueAdd _ _ => true
  | .queueRemove _ a => a.plain
  | .queueClear _ a => a.plain
  | .queryQueue _ a => a.plain
  | .queueStart _ a => a.plain
  | .queueNext _ a => a.plain
  | .readRunlog _ a => a.plain
  | .flushRunlog _ a => a.plain
  | .setReports _ a => a.check fun l => decide (l.length ≤ 83)
  | .queryStatusSummary _ _ => true
  | .queryStatusTrains _ a => a.plain
  | .queryStatusChannels _ a => a.plain
  | .queryStatusPanels _ a => a.plain
  | .readFaults _ a => a.plain
  | .clearFaults _ a => a.plain
  | .setAlarm _ a => a.plain
  | .resetAll _ _ => true
  | .resetPlayback _ a => a.plain
  | .frameOpen _ _ _ => true
  | .frameDone _ _ _ _ => true
  | .frameRequest _ _ _ => true
  | .wheel _ _ => true
  | .jog _ _ => true
  | .key _ _ _ => true
  | .ignoredPanelRecord _ => true
  | .deadManExpiry _ => true
  | .echoSent _ => true
  | .controlRecordSent => true
  | .answerSent _ => true
  | .holdEnd => true
  | .framingDiscard _ _ => true
  | .receiverTimeout _ => true
  | .receivedByte _ _ => true

end Sys2Proof
end

