-- ==== Sys2Proof/Certificates/Slice0/Obligations.lean ====
section
/-! DEFINITION. The statements for the provers. Each docstring names the rules of spec/ it formalises, and the log
entries of notes/assumptions where a clause is the model's choice. -/

open Sys2Proof Sys2Proof.Machine

/-! ## The queue, power and reset -/

/-- A step carries out the command at the front of the queue on the state with the rest of the queue. On an empty queue
(the model's choice, log 2) the device carries out its own next event, or lets one millisecond pass; and nothing
happens while the reset input is asserted (R194, log 8). -/
def Obligations.StepTakesFront : Prop :=
  (∀ (i : Instr) (rest : List Instr) (s : State), s.pending = i :: rest →
    step s = exec i { s with pending := rest }) ∧
  (∀ s : State, s.pending = [] → s.resetAsserted = true → step s = .next s) ∧
  (∀ (s : State) (i : Instr), s.pending = [] → s.resetAsserted = false → s.ownEvent = some i →
    step s = exec i s) ∧
  ∀ s : State, s.pending = [] → s.resetAsserted = false → s.ownEvent = none →
    step s = .next { s with time := (s.time + 1) % 4294967296 }

/-- The state after reset holds the power-on values (R5, R26, R29, R35, R44, R95, R130, R164, R175, R190, R191, R194)
and meets every law stated of the device. That the lanes are empty is the model's reading of "every lane stops" (log
8). -/
def Obligations.ResetHoldsPowerOnValues : Prop :=
  State.reset.powerOnValues ∧ State.reset.lawful ∧ State.reset.pending = [] ∧ State.reset.resetAsserted = false

/-- POWER_ON_RESET gives the power-on values and leaves the input asserted; RESET_INPUT_RELEASE ends that, with every
block at its power-on values and internal time 0 (R194). A release of an input that is not asserted does nothing (log
8). While the reset input is asserted no command, record, byte or timer has any effect (section 11.5, R194: "no record
is taken"; log 8). -/
def Obligations.ResetInput : Prop :=
  ((∀ s : State, ∃ t, exec .powerOnReset s = .next t ∧ t.powerOnValues ∧ t.resetAsserted = true ∧
    t.pending = s.pending) ∧
  (∀ s : State, s.resetAsserted = true → ∃ t, exec .resetInputRelease s = .next t ∧ t.powerOnValues ∧
    t.resetAsserted = false ∧ t.pending = s.pending) ∧
  ∀ s : State, s.resetAsserted = false → exec .resetInputRelease s = .next s) ∧
  (∀ (i : Instr) (s : State), s.resetAsserted = true → i ≠ .powerOnReset → i ≠ .resetInputRelease →
    exec i s = .next s)

/-- RESET with scope ALL and with scope PLAYBACK (R187, R189, R190, R44, R95, R113, R164, R175, R191, R192). ALL gives
every block its power-on values but for internal time, the command port, the answers formed, an echo being sent, the
control link's receiver and the alarm line, which is acted on as a clear: at once, or at the hold end when the hold
runs by the clock, and a line waiting to clear keeps its hold across the reset (section 10.6; log 31). PLAYBACK resets
the channels, the play queues and the panels' arms, echoes and silences, and keeps everything else. -/
def Obligations.ResetCommands : Prop :=
  (∀ (tag : Byte) (u s : State), u.takes (.resetAll tag (.fields ())) s →
    ∃ t, Accepted (.resetAll tag (.fields ())) 0x65 tag u t .empty ∧
      t.storeCleared ∧ t.playbackCleared ∧ t.panelsCleared s.time ∧ t.clipsCleared ∧ t.reportsCleared ∧
      (∀ p, (t.panel p).sending = (s.panel p).sending) ∧
      t.time = s.time ∧ t.pending = s.pending ∧ t.resetAsserted = false ∧
      t.port = s.port ∧ t.ingest = s.ingest ∧ t.playout = s.playout ∧
      t.receiver .control = s.receiver .control ∧
      (∀ l, l ≠ .control → (t.receiver l).state = .hunt ∧ (t.receiver l).held = []) ∧
      t.alarm.mask = 0x3F ∧ t.alarm.holdTime = 500 ∧
      (s.alarm.line ≠ .asserted → t.alarm.line = s.alarm.line ∧ t.alarm.hold = s.alarm.hold) ∧
      (s.alarm.line = .asserted → s.alarm.running s.time = true →
        t.alarm.line = .clearing ∧ t.alarm.hold = s.alarm.hold) ∧
      (s.alarm.line = .asserted → s.alarm.running s.time = false →
        t.alarm.line = .deasserted ∧ t.alarm.hold = none)) ∧
  ∀ (tag : Byte) (u s : State), u.takes (.resetPlayback tag (.fields ())) s →
    ∃ t, Accepted (.resetPlayback tag (.fields ())) 0x65 tag u t .empty ∧
      t.playbackCleared ∧
      (∀ p, t.panel p = { s.panel p with arm := .disarmed, pendingEcho := none, lastRecord := s.time }) ∧
      s.keepsStore t ∧ s.keepsClips t ∧ s.keepsFaults t ∧ s.keepsLinks t ∧ t.runLog = s.runLog ∧
      t.reports = s.reports

/-! ## The command port and the lanes -/

/-- COMMAND_ARRIVAL (R178): at a buffer with a free place the command joins the waiting commands; at a full buffer it
changes nothing but that an OVERLOAD reply is formed, unless 8 wait already, and fault CONTROL_OVERLOAD is recorded. A
command row whose turn it is not (another command is the oldest waiting, or the buffer is full) stands for the arrival
of its record (R178, R179; the model's choice, log 1). -/
def Obligations.CommandArrival : Prop :=
  (∀ (kind tag : Byte) (body : List Byte) (s : State), s.resetAsserted = false →
    let leaves := Leaves (.commandArrival kind tag body) s
    (s.port.placesHeld < 4 →
      leaves { s with port := { s.port with waiting := s.port.waiting ++ [decodeCommand kind tag body] } }) ∧
    (4 ≤ s.port.placesHeld → s.port.overloads < 8 →
      leaves ((s.formReply kind tag .overload .empty true).recordFault .controlOverload none)) ∧
    (4 ≤ s.port.placesHeld → 8 ≤ s.port.overloads → leaves (s.recordFault .controlOverload none))) ∧
  (∀ (kind tag : Byte) (body : List Byte) (s : State), s.resetAsserted = false →
    ((s.port.waiting = [] ∧ 4 ≤ s.port.placesHeld) ∨
      ∃ j rest, s.port.waiting = j :: rest ∧ j ≠ decodeCommand kind tag body) →
    exec (decodeCommand kind tag body) s = exec (.commandArrival kind tag body) s)

/-- The checks of the command port (R179, R193): a kind that is no command kind is answered UNKNOWN_KIND; a body whose
length is not that of its kind, or does not match its list's count, is answered BAD_LENGTH; a presence, mode, flag,
part, scope, end action, class or name length byte outside its listed values is answered BAD_VALUE, the end action of
SET_CLIP_PLAY in every mode of its part; nothing else changes. The lengths and the places of the fields Table 11-3 does
not list are log 9's, the numbers of their values log 10's, and that a count mismatch is BAD_LENGTH reads R193 (log
27); that BAD_VALUE for such a byte comes before every check of the command's block is log 12's. -/
def Obligations.KindAndLengthChecked : Prop :=
  (∀ (kind tag : Byte) (u s : State), u.takes (.unknownKind kind tag) s →
    TurnedAway (.unknownKind kind tag) kind tag u s .unknownKind) ∧
  (∀ (kind tag : Byte) (body : List Byte), commandKind kind = false →
    decodeCommand kind tag body = .unknownKind kind tag) ∧
  (∀ (kind tag : Byte) (body : List Byte) (n : Nat) (u s : State), fixedLength kind.toNat = some n →
    body.length ≠ n → u.takes (decodeCommand kind tag body) s →
    TurnedAway (decodeCommand kind tag body) kind tag u s .badLength) ∧
  (∀ (kind tag : Byte) (body : List Byte) (fixed size : Nat) (u s : State),
    (kind, fixed, size) ∈ [((0x2C : Byte), 2, 1), (0x39, 2, 6), (0x60, 1, 3)] →
    body.length ≠ fixed + size * (body.getD (fixed - 1) 0).toNat → u.takes (decodeCommand kind tag body) s →
    TurnedAway (decodeCommand kind tag body) kind tag u s .badLength) ∧
  (∀ (kind tag : Byte) (body : List Byte) (place values : Nat) (u s : State),
    (kind, place, values) ∈ [((0x14 : Byte), 1, 2), (0x20, 3, 2), (0x23, 1, 2), (0x26, 1, 2), (0x27, 1, 2),
      (0x29, 1, 2), (0x2A, 1, 4), (0x50, 2, 17), (0x52, 2, 3), (0x52, 3, 4), (0x52, 4, 3), (0x52, 9, 3),
      (0x58, 3, 2), (0x58, 5, 2), (0x58, 10, 2), (0x61, 0, 4), (0x65, 0, 2)] →
    fixedLength kind.toNat = some body.length → values ≤ (body.getD place 0).toNat →
    u.takes (decodeCommand kind tag body) s →
    TurnedAway (decodeCommand kind tag body) kind tag u s .badValue) ∧
  ∀ (tag : Byte) (n : Byte) (before after : List Byte) (cls on priority : Byte) (u s : State),
    before.length % 3 = 0 → (before ++ cls :: on :: priority :: after).length = 3 * n.toNat →
    6 ≤ cls.toNat ∨ 2 ≤ on.toNat →
    let body := n :: (before ++ cls :: on :: priority :: after)
    u.takes (decodeCommand 0x60 tag body) s → TurnedAway (decodeCommand 0x60 tag body) 0x60 tag u s .badValue

/-- What each outgoing lane sends next (R181, R183, R192, R113): on the control lane the oldest waiting reply, else the
oldest report of the highest priority held, else nothing; on the ingest and playout lanes the oldest answer; on a panel
lane the pending echo, which leaves its place. A lane that has sent a record begins the next at once; and after every
event each lane that stands idle begins what it has, while a lane that is sending goes on (that it begins in the event
itself is log 3's). -/
def Obligations.LanesSendInOrder : Prop :=
  ∀ s : State,
    let begun := fun t : State =>
      (∀ r rest, s.port.replies = r :: rest →
        t.port = { s.port with replies := rest, sending := some (.reply r.reply) } ∧ t.reports = s.reports) ∧
      (∀ pre r post, s.port.replies = [] → s.reports.queue = pre ++ r :: post →
        (∀ q ∈ pre, q.priority < r.priority) → (∀ q ∈ post, q.priority ≤ r.priority) →
        t.port = { s.port with sending := some (.report r) } ∧
          t.reports = { s.reports with queue := pre ++ post }) ∧
      (s.port.replies = [] → s.reports.queue = [] →
        t.port = { s.port with sending := none } ∧ t.reports = s.reports)
    (s.resetAsserted = false →
      (∃ t, Leaves .controlRecordSent s t ∧ begun t ∧ { t with port := s.port, reports := s.reports } = s) ∧
      (∃ t, Leaves (.answerSent .ingest) s t ∧ s.ingest.begins t.ingest ∧ { t with ingest := s.ingest } = s) ∧
      (∃ t, Leaves (.answerSent .playout) s t ∧ s.playout.begins t.playout ∧ { t with playout := s.playout } = s) ∧
      ∀ p, Leaves (.echoSent p) s (s.setPanel p { s.panel p with
        sending := (s.panel p).pendingEcho, pendingEcho := none })) ∧
    let t := s.startLanes
    (s.port.sending = none → begun t) ∧ (s.port.sending ≠ none → t.port = s.port ∧ t.reports = s.reports) ∧
    (s.ingest.sending = none → s.ingest.begins t.ingest) ∧ (s.ingest.sending ≠ none → t.ingest = s.ingest) ∧
    (s.playout.sending = none → s.playout.begins t.playout) ∧ (s.playout.sending ≠ none → t.playout = s.playout) ∧
    (∀ p, (s.panel p).sending = none →
      t.panel p = { s.panel p with sending := (s.panel p).pendingEcho, pendingEcho := none }) ∧
    (∀ p, (s.panel p).sending ≠ none → t.panel p = s.panel p) ∧
    { t with
      port := s.port, reports := s.reports, ingest := s.ingest, playout := s.playout, panels := s.panels } = s

/-- Raising a report (R182, R183): one of a disabled class is discarded; one of an enabled class is queued while the
queue holds fewer than 64; at a full queue it displaces the youngest report of the lowest priority held when its own is
higher, and is lost otherwise, the lost flag of the class that lost being set. Recording a fault (R185, R187): the
first fault is written when the count is 0, the latest always; the count rises by 1 up to 65,535; FAULT/RECORDED is
raised; and a kind the alarm mask selects drives the line and starts or restarts the hold, while another kind leaves
the alarm as it is. -/
def Obligations.ReportsAndFaultsRecorded : Prop :=
  (∀ (s : State) (b : ReportBody) (on : Bool) (p : Nat), s.reports.settings[(classIndex b.cls).val] = ⟨on, p⟩ →
    (on = false → s.raise b = s) ∧
    (on = true → s.reports.queue.length < 64 →
      s.raise b = { s with reports := { s.reports with queue := s.reports.queue ++ [⟨b, s.time, p⟩] } }) ∧
    (∀ pre v post, on = true → 64 ≤ s.reports.queue.length → s.reports.queue = pre ++ v :: post → v.priority ≤ 3 →
      (∀ q ∈ pre, v.priority ≤ q.priority) → (∀ q ∈ post, v.priority < q.priority) →
      (v.priority < p → s.raise b = { s with reports := { s.reports with
        queue := pre ++ post ++ [⟨b, s.time, p⟩], lost := s.reports.lost.set (classIndex v.body.cls) true } }) ∧
      (p ≤ v.priority → s.raise b = { s with reports := { s.reports with
        lost := s.reports.lost.set (classIndex b.cls) true } }))) ∧
  (∀ (s : State) (k : FaultKind) (object : Option Nat),
    (s.recordFault k object).faults = {
      first := if s.faults.count = 0 then some ⟨k, object, s.time⟩ else s.faults.first
      latest := some ⟨k, object, s.time⟩
      count := if s.faults.count < 65535 then s.faults.count + 1 else s.faults.count } ∧
    (s.recordFault k object).reports =
      (s.raise (.recorded k object s.time
        (if s.faults.count < 65535 then s.faults.count + 1 else s.faults.count))).reports ∧
    (s.recordFault k object).alarm =
      (if s.alarm.mask.getLsbD (faultBit k) then { s.alarm with
        line := .asserted, hold := some ⟨s.time, (s.time + s.alarm.holdTime) % 4294967296⟩ } else s.alarm) ∧
    { s.recordFault k object with faults := s.faults, reports := s.reports, alarm := s.alarm } = s)


/-! ## Trains and the frame store -/

/-- The checks of CONFIGURE_TRAIN, in their order, each refusal changing nothing (R7). -/
def Obligations.ConfigureTrainChecked : Prop :=
  ∀ (tag : Byte) (a : ConfigureTrainArgs) (x : TrainId) (u s : State), a.train.toNat = x.val →
    u.takes (.configureTrain tag (.fields a)) s →
    let bad := a.multiple.toNat ∉ [1, 2, 3, 4, 6, 8] ∨ a.count.toNat < 4 ∨ 4096 < a.first.toNat + a.count.toNat
    let busy := (s.train x).state = .recording ∨ (s.train x).state = .stalled
    let overlap := ∃ y q e, y ≠ x ∧ (s.train y).state ≠ .unconfigured ∧ (s.train y).pool = some q ∧
      q.contains e = true ∧ a.first.toNat ≤ e ∧ e < a.first.toNat + a.count.toNat
    let locked := (s.train x).state = .idle ∧
      ∃ q e, (s.train x).pool = some q ∧ q.contains e = true ∧ 0 < lockCount s.locks e
    (bad → TurnedAway (.configureTrain tag (.fields a)) 0x10 tag u s .badValue) ∧
    (¬bad → busy → TurnedAway (.configureTrain tag (.fields a)) 0x10 tag u s .busy) ∧
    (¬bad → ¬busy → overlap → TurnedAway (.configureTrain tag (.fields a)) 0x10 tag u s .overlap) ∧
    (¬bad → ¬busy → ¬overlap → locked → (∀ y q, (s.train y).pool = some q → 0 < q.count) →
      TurnedAway (.configureTrain tag (.fields a)) 0x10 tag u s .locked)

/-- An accepted CONFIGURE_TRAIN (R6, R8): the train's material is discarded, as `State.discarded` says in full (the
order of its reports is log 14's), and the record is set up with the new pool and multiple, an empty chain, the ring
cursor at the pool's last extent, the serial counter 0 and the first-frame flag set, in IDLE. -/
def Obligations.ConfigureTrainAccepted : Prop :=
  ∀ (tag : Byte) (a : ConfigureTrainArgs) (x : TrainId) (u s : State), a.train.toNat = x.val →
    u.takes (.configureTrain tag (.fields a)) s → s.tableLaw →
    a.multiple.toNat ∈ [1, 2, 3, 4, 6, 8] → 4 ≤ a.count.toNat → a.first.toNat + a.count.toNat ≤ 4096 →
    (s.train x).state = .unconfigured ∨ (s.train x).state = .idle →
    (∀ y q, y ≠ x → (s.train y).state ≠ .unconfigured → (s.train y).pool = some q →
      q.first + q.count ≤ a.first.toNat ∨ a.first.toNat + a.count.toNat ≤ q.first) →
    (∀ q e, (s.train x).state = .idle → (s.train x).pool = some q → q.contains e = true → lockCount s.locks e = 0) →
    ∃ t, Accepted (.configureTrain tag (.fields a)) 0x10 tag u t .empty ∧ s.discarded t x ∧
      t.train x = {
        state := .idle, multiple := a.multiple.toNat, pool := some ⟨a.first.toNat, a.count.toNat⟩, chain := [],
        cursor := some (a.first.toNat + a.count.toNat - 1), reserved := none, serialCounter := 0, inFlight := none,
        firstFrame := true }

/-- RELEASE_TRAIN in each state (R6, R9). That M is kept is the model's choice (log 28), as is the order of the
discard's reports (log 14). STOP_TRAIN in each state (R11): RECORDING and STALLED go to IDLE, the in-flight frame
abandoned and the reserved extent free; the chain, the serial counter and everything else stay. -/
def Obligations.ReleaseAndStopTrain : Prop :=
  (∀ (tag b : Byte) (x : TrainId) (u s : State), b.toNat = x.val → u.takes (.releaseTrain tag (.fields b)) s →
    ((s.train x).state = .unconfigured → Accepted (.releaseTrain tag (.fields b)) 0x11 tag u s .empty) ∧
    ((s.train x).state = .recording ∨ (s.train x).state = .stalled →
      TurnedAway (.releaseTrain tag (.fields b)) 0x11 tag u s .busy) ∧
    (∀ q e, (s.train x).state = .idle → (s.train x).pool = some q → q.contains e = true → 0 < lockCount s.locks e →
      TurnedAway (.releaseTrain tag (.fields b)) 0x11 tag u s .locked) ∧
    ((s.train x).state = .idle → s.tableLaw →
      (∀ q e, (s.train x).pool = some q → q.contains e = true → lockCount s.locks e = 0) →
      ∃ t, Accepted (.releaseTrain tag (.fields b)) 0x11 tag u t .empty ∧ s.discarded t x ∧
        t.train x = {
          state := .unconfigured, multiple := (s.train x).multiple, pool := none, chain := [], cursor := none,
          reserved := none, serialCounter := 0, inFlight := none, firstFrame := false })) ∧
  (∀ (tag b : Byte) (x : TrainId) (u s : State), b.toNat = x.val → u.takes (.stopTrain tag (.fields b)) s →
    ((s.train x).state = .unconfigured → TurnedAway (.stopTrain tag (.fields b)) 0x13 tag u s .noSource) ∧
    ((s.train x).state = .idle → Accepted (.stopTrain tag (.fields b)) 0x13 tag u s .empty) ∧
    ((s.train x).state = .recording ∨ (s.train x).state = .stalled →
      Accepted (.stopTrain tag (.fields b)) 0x13 tag u
        (s.setTrain x { s.train x with state := .idle, inFlight := none, reserved := none }) .empty))

/-- START_TRAIN in each state (R10, R21): a train with room in its current extent resumes into it, and at a fill of 48
or more reserves the ring search's candidate, if there is one; a train without room makes the candidate current with a
new chain entry at the serial counter, or stalls with TRAIN/STALLED and fault TRAIN_STALLED. A retained candidate is
reclaimed as it is picked (R20, R22). A train field of 16 or more is refused with BAD_VALUE by CONFIGURE_TRAIN,
RELEASE_TRAIN, START_TRAIN and STOP_TRAIN (section 1.3). -/
def Obligations.StartTrain : Prop :=
  (∀ (tag : Byte) (a : ConfigureTrainArgs) (b kind : Byte) (i : Instr) (u s : State), 16 ≤ b.toNat → a.train = b →
    (i, kind) ∈ [(Instr.configureTrain tag (.fields a), (0x10 : Byte)), (.releaseTrain tag (.fields b), 0x11),
      (.startTrain tag (.fields b), 0x12), (.stopTrain tag (.fields b), 0x13)] →
    u.takes i s → TurnedAway i kind tag u s .badValue) ∧
  ∀ (tag b : Byte) (x : TrainId) (u s : State), b.toNat = x.val → u.takes (.startTrain tag (.fields b)) s →
    let r := s.train x
    let full := ∀ e, r.current = some e → 64 ≤ e.fill
    let accepted := fun t => Accepted (.startTrain tag (.fields b)) 0x12 tag u t .empty
    (r.state = .unconfigured → TurnedAway (.startTrain tag (.fields b)) 0x12 tag u s .noSource) ∧
    (r.state = .recording ∨ r.state = .stalled → accepted s) ∧
    (∀ e, r.state = .idle → r.current = some e → e.fill < 64 →
      let s1 := s.setTrain x { r with state := .recording, firstFrame := true }
      (e.fill < 48 ∨ r.candidate s.locks = none → accepted s1) ∧
      ∀ c, 48 ≤ e.fill → r.candidate s.locks = some c →
        ∃ p, s1.picks x c p ∧ accepted (p.setTrain x { p.train x with reserved := some c })) ∧
    (∀ c, r.state = .idle → full → r.candidate s.locks = some c → ∃ p, s.picks x c p ∧
      accepted (p.setTrain x { p.train x with
        state := .recording, firstFrame := true, chain := (p.train x).chain ++ [⟨c, r.serialCounter, 0⟩]
        cursor := some c, reserved := none })) ∧
    (r.state = .idle → full → r.candidate s.locks = none →
      accepted (((s.setTrain x { r with state := .stalled, firstFrame := true }).raise (.stalled x)).recordFault
        .trainStalled (some x.val)))

/-- FRAME_OPEN (R12 to R16). For a recording train it grants the current extent's next page and the serial counter, an
older in-flight frame being abandoned with fault INGEST_SEQUENCE; at the serial limit the train goes to IDLE with a
drop, a report and a fault (that an in-flight frame goes with it is log 29); a stalled train whose search finds nothing
drops the frame; every other train drops it with NOT_RECORDING. -/
def Obligations.FrameOpen : Prop :=
  ∀ (tag train : Byte) (label : TimecodeField) (s : State), s.resetAsserted = false →
    let leaves := Leaves (.frameOpen tag train label) s
    let answered := fun (t : State) (a : IngestAnswer) =>
      ({ t with ingest := { s.ingest with waiting := s.ingest.waiting ++ [(tag, a)] } } : State)
    (16 ≤ train.toNat → leaves (answered s (.drop train .notRecording))) ∧
    ∀ x : TrainId, train.toNat = x.val →
      let r := s.train x
      (r.state = .idle ∨ r.state = .unconfigured → leaves (answered s (.drop train .notRecording))) ∧
      (∀ e, r.state = .recording → r.serialCounter ≠ 4294967295 → r.current = some e →
        let s1 := if r.inFlight = none then s else s.recordFault .ingestSequence (some train.toNat)
        let page := e.extent * 64 + e.fill
        leaves (answered (s1.setTrain x { r with inFlight := some ⟨page, r.serialCounter, label⟩ })
          (.grant train page r.serialCounter))) ∧
      (r.state = .recording ∨ r.state = .stalled → r.serialCounter = 4294967295 →
        leaves (((answered (s.setTrain x { r with state := .idle, reserved := none, inFlight := none })
          (.drop train .serialLimit)).raise (.serialLimit x)).recordFault .serialLimit (some x.val))) ∧
      (r.state = .stalled → r.serialCounter ≠ 4294967295 → r.candidate s.locks = none →
        leaves (answered s (.drop train .stalled)))

/-- A stall retry that finds a candidate resumes the train (R15, R20, R22, R25): the candidate, reclaimed when it was
retained, becomes current with a new chain entry at the serial counter, the ring cursor moves to it, the train records
again with TRAIN/RESUMED, and the frame is granted page index 0. At a fill of 64 the train changes extent or stalls
(R24): with a reserved extent, that extent becomes current with a new chain entry at the serial counter; without one,
the train stalls with TRAIN/STALLED and fault TRAIN_STALLED. -/
def Obligations.StallsAndExtentChanges : Prop :=
  (∀ (tag train : Byte) (label : TimecodeField) (x : TrainId) (e : Nat) (s : State), s.resetAsserted = false →
    train.toNat = x.val → (s.train x).state = .stalled → (s.train x).serialCounter ≠ 4294967295 →
    (s.train x).candidate s.locks = some e →
    ∃ p t, s.picks x e p ∧ Leaves (.frameOpen tag train label) s t ∧
      t.train x = { p.train x with
        state := .recording, reserved := none, cursor := some e
        chain := (p.train x).chain ++ [⟨e, (s.train x).serialCounter, 0⟩]
        inFlight := some ⟨e * 64, (s.train x).serialCounter, label⟩ } ∧
      t.ingest = { s.ingest with
        waiting := s.ingest.waiting ++ [(tag, .grant train (e * 64) (s.train x).serialCounter)] } ∧
      p.raised t [.resumed x e] ∧
      { t with trains := t.trains.set x.val (p.train x), ingest := p.ingest, reports := p.reports } = p) ∧
  (∀ (x : TrainId) (s : State) (e : ChainEntry), (s.train x).current = some e → e.fill = 64 →
    (∀ c, (s.train x).reserved = some c → s.comparePoints x = s.setTrain x { s.train x with
      chain := (s.train x).chain ++ [⟨c, (s.train x).serialCounter, 0⟩], cursor := some c, reserved := none }) ∧
    ((s.train x).reserved = none → s.comparePoints x =
      ((s.setTrain x { s.train x with state := .stalled }).raise (.stalled x)).recordFault .trainStalled
        (some x.val)))

/-- FRAME_DONE of the in-flight page, good (R17, R18, R36, R37): the frame is acknowledged and published, which leaves
a state u: the fill and the serial counter have risen by 1, no frame is in flight, the first-frame flag is clear, and
the label, after any replacement, is the last label; a first frame is anchored without a report, a label that is
replaced or not the expected one is anchored with TRAIN/DISCONTINUITY, and another is not anchored; an anchor added to
a list of 128 first removes the oldest, with TRAIN/MAP_FULL. Then the fill is compared with the reservation points
(R18, R21, R24): below 48, or below 64 with an extent reserved, nothing follows; from 48 to 63 without one, the ring
search's candidate, reclaimed when it was retained, becomes reserved; at 64 the reserved extent becomes current with a
new chain entry at the serial counter, or the train stalls. FRAME_DONE that publishes nothing (R12, R17, R19): of the
in-flight page, bad, it is acknowledged and the frame is settled; of anything else, or with a train number outside 0 to
15, it is answered STALE with fault INGEST_SEQUENCE and changes no train. -/
def Obligations.FrameDone : Prop :=
  (∀ (tag train : Byte) (page : Word) (x : TrainId) (f : InFlight) (pre : List ChainEntry) (e : ChainEntry)
    (s : State), s.resetAsserted = false → train.toNat = x.val → (s.train x).inFlight = some f →
    f.page = page.toNat → (s.train x).chain = pre ++ [e] → e.fill < 64 →
    let r := s.train x
    let m := s.map x
    let tc := s.timebase.receive r.multiple f.label
    let removed : List ReportBody := match m.anchors with
      | oldest :: second :: rest => if 128 ≤ rest.length + 2 then [.mapFull x oldest.serial second.serial] else []
      | _ => []
    let anchored := fun (u : State) (bodies : List ReportBody) =>
      (u.map x).anchors = m.anchors.drop removed.length ++ [⟨f.serial, tc.1.tcnum, tc.1.phase⟩] ∧
      s.raised u (removed ++ bodies)
    ∃ u t, Leaves (.frameDone tag train page true) s t ∧
      u.train x = { r with
        chain := pre ++ [{ e with fill := e.fill + 1 }], serialCounter := r.serialCounter + 1, inFlight := none
        firstFrame := false } ∧
      u.ingest = { s.ingest with waiting := s.ingest.waiting ++ [(tag, .ack train page)] } ∧
      (u.map x).lastLabel = some tc.1 ∧
      { u with
        trains := u.trains.set x.val r, maps := u.maps.set x.val m, ingest := s.ingest, reports := s.reports } = s ∧
      (r.firstFrame = true ∨ m.lastLabel = none → anchored u []) ∧
      (∀ l, r.firstFrame = false → m.lastLabel = some l →
        let expected := s.timebase.advance r.multiple l
        (tc.1 = expected → tc.2 = false → (u.map x).anchors = m.anchors ∧ u.reports = s.reports) ∧
        (tc.1 ≠ expected ∨ tc.2 = true → anchored u
          [.discontinuity x f.serial (s.timebase.field tc.1) (s.timebase.field expected) tc.2])) ∧
      let fill := e.fill + 1
      (fill < 48 ∨ (fill < 64 ∧ r.reserved ≠ none) → t = u) ∧
      (48 ≤ fill → fill < 64 → r.reserved = none →
        ((u.train x).candidate s.locks = none → t = u) ∧
        ∀ c, (u.train x).candidate s.locks = some c →
          ∃ p, u.picks x c p ∧ t = p.setTrain x { p.train x with reserved := some c }) ∧
      (fill = 64 →
        (∀ c, r.reserved = some c → t = u.setTrain x { u.train x with
          chain := (u.train x).chain ++ [⟨c, r.serialCounter + 1, 0⟩], cursor := some c, reserved := none }) ∧
        (r.reserved = none → t = ((u.setTrain x { u.train x with state := .stalled }).raise (.stalled x)).recordFault
          .trainStalled (some x.val)))) ∧
  ((∀ (tag train : Byte) (page : Word) (x : TrainId) (f : InFlight) (s : State), s.resetAsserted = false →
    train.toNat = x.val → (s.train x).inFlight = some f → f.page = page.toNat →
    Leaves (.frameDone tag train page false) s { s with
      trains := s.trains.set x.val { s.train x with inFlight := none }
      ingest := { s.ingest with waiting := s.ingest.waiting ++ [(tag, .ack train page)] } }) ∧
  ∀ (tag train : Byte) (page : Word) (good : Bool) (s : State), s.resetAsserted = false →
    (∀ x : TrainId, train.toNat = x.val → ∀ f, (s.train x).inFlight = some f → f.page ≠ page.toNat) →
    Leaves (.frameDone tag train page good) s
      (State.recordFault { s with
        ingest := { s.ingest with waiting := s.ingest.waiting ++ [(tag, .stale train page)] } }
        .ingestSequence (some train.toNat)))

/-- The ring search (R20): over one lap of the pool from the extent after the ring cursor, in extent order and
wrapping, the first extent with lock count 0 that is free or retained; not the current and not the reserved one. -/
def Obligations.RingSearch : Prop :=
  ∀ (t : Train) (locks : List (Nat × Nat)) (p : Pool) (cursor e : Nat), t.pool = some p → t.cursor = some cursor →
    p.contains cursor = true →
    let visit := fun i => p.first + (cursor - p.first + 1 + i) % p.count
    let fits := fun c => lockCount locks c = 0 ∧ t.reserved ≠ some c ∧ t.current.map (·.extent) ≠ some c
    (t.candidate locks = some e ↔
      ∃ i, i < p.count ∧ e = visit i ∧ fits e ∧ ∀ j, j < i → ¬fits (visit j)) ∧
    (t.candidate locks = none ↔ ∀ i, i < p.count → ¬fits (visit i))

/-- Reclaim of a chain entry that another entry follows, on the train and the heads on it (R22, R23, R38): the entry
leaves the chain; an anchor stays exactly when its range, from its serial to below the next anchor's, still holds a
retained frame, each judged before any is removed; a TRAIN-source head on the reclaimed frames is pushed to the first
serial of the next entry; a channel whose source is not an angle of an unlocked clip that lies wholly in the range is
otherwise unchanged; every other train, every lock count, guard and mark, and what the links hold, stay. What happens
to the clips, to the channels that lose their angle and to the reports is ReclaimReachesClips. -/
def Obligations.ReclaimEffects : Prop :=
  ∀ (x : TrainId) (s : State) (pre post : List ChainEntry) (e n : ChainEntry), (s.train x).chainLaw →
    (s.train x).chain = pre ++ e :: n :: post → 0 < e.fill →
    let t := s.reclaim x e
    let a := e.first
    let b := e.first + e.fill - 1
    let on := fun c => (s.channel c).source = .train x ∧ a ≤ (s.channel c).head / 1200 ∧ (s.channel c).head / 1200 ≤ b
    t.train x = { s.train x with chain := pre ++ n :: post } ∧
    (∀ y, y ≠ x → t.train y = s.train y ∧ t.map y = s.map y) ∧
    (t.map x).lastLabel = (s.map x).lastLabel ∧
    (∃ held : Nat → Bool,
      (∀ i g, (s.map x).anchors[i]? = some g → (held i = true ↔ ∃ q, g.serial ≤ q ∧
        (∀ next, (s.map x).anchors[i + 1]? = some next → q < next.serial) ∧ (t.train x).retained q = true)) ∧
      (t.map x).anchors = ((s.map x).anchors.zipIdx.filter fun gi => held gi.2).map (·.1)) ∧
    (∀ c, on c → t.channel c = { s.channel c with head := n.first * 1200 } ∧ t.queue c = s.queue c) ∧
    (∀ c, ¬on c → (∀ k ∈ s.clips, ∀ i g, k.lock = .unlocked → (s.channel c).source = .clip k.id i →
        k.angles[i]? = some g → g.present = true → g.train = x → ¬(a ≤ g.inSerial ∧ g.outSerial ≤ b)) →
      t.channel c = s.channel c ∧ t.queue c = s.queue c) ∧
    t.locks = s.locks ∧ t.timebase = s.timebase ∧ t.guards = s.guards ∧ s.keepsFaults t ∧ s.keepsLinks t ∧
    t.freeReads = s.freeReads ∧
    ∀ c, (t.channel c).markIn = (s.channel c).markIn ∧ (t.channel c).markOut = (s.channel c).markOut

/-- Reclaim of a chain entry that another entry follows, on the clips, the channels that lose their angle, and the
reports (R23, R91, R134, R135, Table 7-2). Every present angle on the train that shares a serial with the range, of a
clip that is not locked, is changed by the first case that fits: wholly inside, it is not present; begun inside, its in
serial moves to the least retained one above; ended inside, its out serial moves to the greatest one below, both
trimmed; holed otherwise. The clip's state is derived again and one report raised for it, in id order (that a case 2 or
3 with no retained serial on its side cannot be is log 21's). Then the heads pushed are reported (the order is log
14's); then every channel whose angle is no longer present goes CUED on the train at the next entry, its session logged
ABORTED and queue play ended. -/
def Obligations.ReclaimReachesClips : Prop :=
  ∀ (x : TrainId) (s : State) (pre post : List ChainEntry) (e n : ChainEntry), (s.train x).chainLaw → s.tableLaw →
    (s.train x).chain = pre ++ e :: n :: post → 0 < e.fill → s.runLog.entries.length ≤ 256 →
    let t := s.reclaim x e
    let r := t.train x
    let a := e.first
    let b := e.first + e.fill - 1
    let reached := fun (k : Clip) (g : Angle) => decide (k.lock = .unlocked) && g.present && decide (g.train = x) &&
      decide (g.inSerial ≤ b ∧ a ≤ g.outSerial)
    let caseOf := fun g : Angle =>
      if a ≤ g.inSerial then (if g.outSerial ≤ b then TrimCase.case1 else .case2)
      else if g.outSerial ≤ b then .case3 else .case4
    let holedOver := fun g : Angle => g.holed = true ↔ ∃ q, g.inSerial ≤ q ∧ q ≤ g.outSerial ∧ r.retained q = false
    let becomes := fun g g' : Angle => match caseOf g with
      | .case1 => g' = { g with present := false }
      | .case2 => ∀ q, b < q → r.retained q = true → (∀ m, b < m → m < q → r.retained m = false) →
        g' = { g with inSerial := q, trimmed := true, holed := g'.holed } ∧ holedOver g'
      | .case3 => ∀ q, q < a → r.retained q = true → (∀ m, q < m → m < a → r.retained m = false) →
        g' = { g with outSerial := q, trimmed := true, holed := g'.holed } ∧ holedOver g'
      | _ => g' = { g with holed := g'.holed } ∧ holedOver g'
    let losing := s.clips.flatMap fun k => (k.angles.zipIdx.filter fun gi =>
        reached k gi.1 && decide (caseOf gi.1 = .case1)).flatMap fun gi =>
      allChannels.filter fun c => decide ((s.channel c).source = .clip k.id gi.2)
    ∃ after : Clip → Clip, t.clips = s.clips.map after ∧
      (∀ k ∈ s.clips, k.angles.any (reached k) = false → after k = k) ∧
      (∀ k ∈ s.clips, k.angles.any (reached k) = true →
        after k = { k with angles := (after k).angles, state := clipStateOf (after k).angles } ∧
        (after k).angles.length = k.angles.length ∧
        ∀ (i : Nat) (g g' : Angle), k.angles[i]? = some g → (after k).angles[i]? = some g' →
          (reached k g = false → g' = g) ∧ (reached k g = true → becomes g g')) ∧
      s.raised t (
        ((s.clips.filter fun k => k.angles.any (reached k)).map fun k =>
          if (after k).state = .lost then .lost k.id x (.serials a b) .lost
          else .trimmed k.id x (.serials a b) (after k).state
            (k.angles.zipIdx.filterMap fun gi => if reached k gi.1 then some (gi.2, caseOf gi.1) else none)) ++
        ((allChannels.filter fun c => decide ((s.channel c).source = .train x ∧ a ≤ (s.channel c).head / 1200 ∧
            (s.channel c).head / 1200 ≤ b)).map fun c => .pushed c x ((s.channel c).head / 1200) n.first) ++
        s.abortReports (fun c => .stateChanged c (s.channel c).state .cued ⟨.train x, some x⟩ n.first .angleLoss)
          s.runLog.entries.length losing) ∧
      s.logged t (s.endedOn .aborted losing) ∧
      (∀ c ∈ losing, t.channel c = { s.channel c with
          state := .cued, source := .train x, head := n.first * 1200, speed := 0, target := 0, bounce := none
          edgeHold := false, jogAcc := 0 } ∧
        t.queue c = { s.queue c with playing := false, session := none }) ∧
      ∀ p, t.panel p =
        if (s.panel p).arm = .lost ∧
            (s.panel p).binding.any (fun c => decide (c ∈ losing ∧ (s.channel c).state = .shuttle)) then
          { s.panel p with arm := .disarmed }
        else s.panel p

/-! ## House timecode -/

/-- TIMEBASE and QUERY_ANCHORS (R28, R33, R35, R43). An accepted TIMEBASE sets the rate and counting mode and clears
every pending mark; QUERY_ANCHORS answers with the timebase, D, the multiple, the list's length, the last label and up
to 16 anchors from the start index. -/
def Obligations.TimebaseAndAnchors : Prop :=
  (∀ (tag : Byte) (a : TimebaseArgs) (u s : State), u.takes (.timebase tag (.fields a)) s →
    let good := a.rate.toNat ∈ [24, 25, 30, 48, 50, 60] ∧ (a.drop = true → a.rate.toNat = 30 ∨ a.rate.toNat = 60)
    (¬good → TurnedAway (.timebase tag (.fields a)) 0x14 tag u s .badValue) ∧
    (good → (∃ x, (s.train x).state ≠ .unconfigured) →
      TurnedAway (.timebase tag (.fields a)) 0x14 tag u s .busy) ∧
    (good → (∀ x, (s.train x).state = .unconfigured) →
      ∃ t, Accepted (.timebase tag (.fields a)) 0x14 tag u t .empty ∧ t.timebase = ⟨a.rate.toNat, a.drop⟩ ∧
        (∀ c, t.channel c = { s.channel c with markIn := none, markOut := none }) ∧
        { t with timebase := s.timebase, channels := s.channels } = s)) ∧
  (∀ (tag : Byte) (a : QueryAnchorsArgs) (u s : State), u.takes (.queryAnchors tag (.fields a)) s →
    (16 ≤ a.train.toNat ∨ 128 ≤ a.start.toNat → TurnedAway (.queryAnchors tag (.fields a)) 0x15 tag u s .badValue) ∧
    ∀ x : TrainId, a.train.toNat = x.val → a.start.toNat ≤ 127 →
      Accepted (.queryAnchors tag (.fields a)) 0x15 tag u s (.anchors s.timebase
        (86400 * s.timebase.rate - (if s.timebase.drop then (if s.timebase.rate = 60 then 4 else 2) else 0) * 1296)
        (s.train x).multiple (s.map x).anchors.length
        ((s.map x).lastLabel.map fun l => ⟨s.timebase.label l.tcnum, l.phase⟩)
        ((((s.map x).anchors.drop a.start.toNat).take 16).map fun g =>
          (g.serial, ⟨s.timebase.label g.tcnum, g.phase⟩))))

/-- Labels and timecode numbers are two forms of one thing (R30, R31, R32): under every timebase TIMEBASE accepts, the
label formed for a number below D is valid and turns back into the number; and a valid label turns into a number below
D from which the same label is formed. The replacement of labels that arrive on the ingest link (R34): a label whose
ff, ss, mm or hh is too high is replaced, the highest row of the table first, by ff 0 of the next second, by the next
minute, by the next hour, or by 00:00:00:00, a carry past hour 23 wrapping; a dropped label moves to ff = d of its
second, and a valid one is kept. Whatever was received, the frame's label is then a valid one with a phase below M; a
phase below M is kept, and one of M or more moves to phase 0 of the next timecode frame. -/
def Obligations.LabelsAndNumbersAgree : Prop :=
  (∀ tb : Timebase, tb.valid = true →
    (∀ n, n < tb.day → tb.labelValid (tb.label n) = true ∧ tb.number (tb.label n) = n) ∧
    ∀ l, tb.labelValid l = true → tb.number l < tb.day ∧ tb.label (tb.number l) = l) ∧
  (∀ (tb : Timebase) (l : Label), tb.valid = true →
    let d := if tb.drop then (if tb.rate = 60 then 4 else 2) else 0
    let hour := fun hh : Nat => (⟨if hh = 23 then 0 else hh + 1, 0, 0, 0⟩ : Label)
    let minute := fun hh mm : Nat => if mm = 59 then hour hh else ⟨hh, mm + 1, 0, 0⟩
    let second := fun hh mm ss : Nat => if ss = 59 then minute hh mm else ⟨hh, mm, ss + 1, 0⟩
    (tb.rate ≤ l.ff → tb.repair l = tb.repair (second l.hh l.mm l.ss)) ∧
    (l.ff < tb.rate → 60 ≤ l.ss → tb.repair l = tb.repair (minute l.hh l.mm)) ∧
    (l.ff < tb.rate → l.ss < 60 → 60 ≤ l.mm → tb.repair l = tb.repair (hour l.hh)) ∧
    (l.ff < tb.rate → l.ss < 60 → l.mm < 60 → 24 ≤ l.hh → tb.repair l = ⟨0, 0, 0, 0⟩) ∧
    (l.ff < tb.rate → l.ss < 60 → l.mm < 60 → l.hh < 24 →
      (l.ss = 0 ∧ l.ff < d ∧ l.mm % 10 ≠ 0 → tb.repair l = { l with ff := d }) ∧
      (¬(l.ss = 0 ∧ l.ff < d ∧ l.mm % 10 ≠ 0) → tb.repair l = l))) ∧
  (∀ (tb : Timebase) (m : Nat) (f : TimecodeField), tb.valid = true → 0 < m →
    let r := tb.receive m f
    r.1.tcnum < tb.day ∧ r.1.phase < m ∧ tb.labelValid (tb.repair (labelOf f)) = true ∧
    (tb.labelValid (labelOf f) = true → f.phase.toNat < m →
      r = (⟨tb.number (labelOf f), f.phase.toNat⟩, false)) ∧
    (¬(tb.labelValid (labelOf f) = true ∧ f.phase.toNat < m) → r.2 = true) ∧
    (f.phase.toNat < m → r.1 = ⟨tb.number (tb.repair (labelOf f)), f.phase.toNat⟩) ∧
    (m ≤ f.phase.toNat → r.1 = ⟨(tb.number (tb.repair (labelOf f)) + 1) % tb.day, 0⟩))

/-- Looking a frame up both ways (R39, R40). A retained serial is UNTIMED below the oldest anchor, and otherwise
counted on from the anchor with the greatest serial not above it; a serial not retained is NOT_FOUND. A timecode and
phase name, from each anchor, the serial that lies as many frames on; the anchor matches when that serial lies in its
range and is retained. The newest anchor that matches gives the result, and when none matches it is NOT_FOUND. A serial
so found has the timecode asked for, and a timecode found lies below D with a phase below M. The last two clauses hold
for every number and phase: that one at or above D (log 18) or M (log 36), beyond the ranges of R40, is looked up in
the same way is the model's choice. -/
def Obligations.LookupsAgree : Prop :=
  ∀ (tb : Timebase) (t : Train) (m : AnchorMap), 0 < tb.day → 0 < t.multiple →
    (∀ s tc, timecodeOf tb t m s = .found tc → t.retained s = true ∧ tc.tcnum < tb.day ∧ tc.phase < t.multiple) ∧
    (∀ s, t.retained s = false → timecodeOf tb t m s = .notFound) ∧
    (∀ s, t.retained s = true → (timecodeOf tb t m s = .untimed ↔ ∀ a ∈ m.anchors, s < a.serial)) ∧
    (∀ s, ∀ a ∈ m.anchors, (m.anchors.map (·.serial)).Pairwise (· < ·) → t.retained s = true → a.serial ≤ s →
      (∀ g ∈ m.anchors, g.serial ≤ s → g.serial ≤ a.serial) →
      let k := a.phase + (s - a.serial)
      timecodeOf tb t m s = .found ⟨(a.tcnum + k / t.multiple) % tb.day, k % t.multiple⟩) ∧
    (∀ tc p s, serialOf tb t m tc p = some s → t.retained s = true) ∧
    (∀ tc p s, tc < tb.day → p < t.multiple → (m.anchors.map (·.serial)).Pairwise (· < ·) →
      serialOf tb t m tc p = some s → timecodeOf tb t m s = .found ⟨tc, p⟩) ∧
    ∀ tc p : Nat,
      let names := fun (a : Anchor) (newer : List Anchor) (s : Nat) =>
        (s : Int) = a.serial + (((tc : Int) - a.tcnum) % tb.day * t.multiple + p - a.phase) ∧ a.serial ≤ s ∧
          (∀ g, newer.head? = some g → s < g.serial) ∧
          (newer = [] → ∃ edge, t.recordEdge = some edge ∧ s ≤ edge) ∧ t.retained s = true
      (∀ older a newer s, m.anchors = older ++ a :: newer → names a newer s →
        (∀ between g newest n, newer = between ++ g :: newest → ¬names g newest n) →
        serialOf tb t m tc p = some s) ∧
      ((∀ older a newer s, m.anchors = older ++ a :: newer → ¬names a newer s) → serialOf tb t m tc p = none)

/-- A head mapped from one train onto another (R41). On its own train it is itself, with no lookup. Otherwise the
head's frame is looked up, and UNTIMED or NOT_FOUND there is the result; its place within the timecode frame is scaled
from one multiple to the other, truncated, to a phase q, below the other train's multiple, and a fraction g; the other
train's frame for the same timecode and q is looked up, and NOT_FOUND there is the result; and the head is that serial
with fraction g. Mapping a head between trains of one multiple keeps its phase and fraction. -/
def Obligations.HeadsMapped : Prop :=
  ∀ (s : State) (x y : TrainId) (h : Nat),
    s.mapHead x x h = .found h ∧
    (x ≠ y → 0 < (s.train x).multiple →
      let here := timecodeOf s.timebase (s.train x) (s.map x) (h / 1200)
      (here = .untimed → s.mapHead x y h = .untimed) ∧
      (here = .notFound → s.mapHead x y h = .notFound) ∧
      ∀ tc, here = .found tc →
        let u := (tc.phase * 1200 + h % 1200) * (s.train y).multiple / (s.train x).multiple
        let found := serialOf s.timebase (s.train y) (s.map y) tc.tcnum (u / 1200)
        (0 < (s.train y).multiple → u / 1200 < (s.train y).multiple) ∧
        ((s.train y).multiple = (s.train x).multiple → u / 1200 = tc.phase ∧ u % 1200 = h % 1200) ∧
        (found = none → s.mapHead x y h = .notFound) ∧
        ∀ n, found = some n → s.mapHead x y h = .found (n * 1200 + u % 1200) ∧
          (s.train y).retained n = true)

/-! ## Transport control -/

/-- The checks every channel command makes first (R71, R150, R156, R158, R162, R165 to R170, R116, R118, R120): a
channel field that names none of A to F is refused with BAD_VALUE; and on a channel in FOLLOWING, a transport command,
ANGLE, ANGLE_NEXT, QUEUE_START or QUEUE_NEXT whose fields lie in their ranges is refused with GANGED. -/
def Obligations.ChannelChecks : Prop :=
  (∀ (tag : Byte) (u s : State) (i : Instr) (kind b : Byte), u.takes i s → 6 ≤ b.toNat →
    (i, kind) ∈ [(Instr.unload tag (.fields b), (0x22 : Byte)), (.pause tag (.fields b), 0x25),
      (.angleNext tag (.fields b), 0x31), (.ungang tag (.fields b), 0x33), (.markIn tag (.fields b), 0x40),
      (.markOut tag (.fields b), 0x41), (.clearMarks tag (.fields b), 0x42), (.take tag (.fields b), 0x43),
      (.queueClear tag (.fields b), 0x5A), (.queueStart tag (.fields b), 0x5C),
      (.queueNext tag (.fields b), 0x5D)] →
    TurnedAway i kind tag u s .badValue) ∧
  (∀ (tag : Byte) (u s : State) (i : Instr) (kind b v : Byte) (id : Half) (w : Word) (o p : Option Byte)
    (ow : Option Word) (tc : Option TimecodeField) (bl : Bool) (ea : EndAction) (l : List Byte), u.takes i s →
    6 ≤ b.toNat →
    (i, kind) ∈ [(Instr.loadClip tag (.fields ⟨b, id, o⟩), (0x20 : Byte)), (.selectTrain tag (.fields ⟨b, v⟩), 0x21),
      (.play tag (.fields ⟨b, ow⟩), 0x23), (.setSpeed tag (.fields ⟨b, w⟩), 0x24),
      (.goto tag (.fields ⟨b, ow, tc⟩), 0x26), (.live tag (.fields ⟨b, ow⟩), 0x27),
      (.setAccel tag (.fields ⟨b, w⟩), 0x28), (.setBlend tag (.fields ⟨b, bl⟩), 0x29),
      (.setEndAction tag (.fields ⟨b, ea⟩), 0x2A), (.setTargetBank tag (.fields ⟨b, v⟩), 0x2B),
      (.setAngleGroup tag (.fields ⟨b, l⟩), 0x2C), (.angle tag (.fields ⟨b, v⟩), 0x30),
      (.gang tag (.fields ⟨b, v⟩), 0x32), (.queueAdd tag (.fields ⟨b, id, o, ow, p⟩), 0x58),
      (.queueRemove tag (.fields ⟨b, v⟩), 0x59), (.queryQueue tag (.fields ⟨b, v⟩), 0x5B)] →
    TurnedAway i kind tag u s .badValue) ∧
  ∀ (tag : Byte) (c : ChannelId) (u s : State) (i : Instr) (kind b x v : Byte) (id : Half) (w n : Word)
    (o : Option Byte) (ow d : Option Word) (f : TimecodeField), u.takes i s → b.toNat = c.val →
    (s.channel c).state = .following → s.timebase.labelValid (labelOf f) = true →
    x.toNat < 16 → v.toNat < 8 → id.toNat < 1024 → (∀ g, o = some g → g.toNat < 8) →
    (∀ g, d = some g → g.toNat ≤ 1000) →
    (i, kind) ∈ [(Instr.loadClip tag (.fields ⟨b, id, o⟩), (0x20 : Byte)), (.selectTrain tag (.fields ⟨b, x⟩), 0x21),
      (.unload tag (.fields b), 0x22), (.play tag (.fields ⟨b, ow⟩), 0x23), (.setSpeed tag (.fields ⟨b, w⟩), 0x24),
      (.pause tag (.fields b), 0x25), (.goto tag (.fields ⟨b, some n, none⟩), 0x26),
      (.goto tag (.fields ⟨b, none, some f⟩), 0x26),
      (.live tag (.fields ⟨b, d⟩), 0x27), (.angle tag (.fields ⟨b, v⟩), 0x30), (.angleNext tag (.fields b), 0x31),
      (.queueStart tag (.fields b), 0x5C), (.queueNext tag (.fields b), 0x5D)] →
    TurnedAway i kind tag u s .ganged

/-- LOAD_CLIP (R71, R72, R73, R46): BAD_VALUE for a clip id of 1024 or more or an angle index of 8 or more, in every
state; NOT_FOUND without such a clip, on a LOST one, or on an angle that is not present; otherwise the programme on the
channel is cut, the clip becomes the source in CUED at its in serial, and a new session opens; the settings, the marks
and the gang role are kept. SELECT_TRAIN (R71, R74, R46, R58): BAD_VALUE for a train field of 16 or more, in every
state; NO_SOURCE on a train with no retained frame; otherwise the programme is cut and the train becomes the source, in
CUED at the mapped head or at the record edge when the channel is IDLE or the mapping fails; a channel in LIVE stays in
LIVE and is placed on the new train at once. UNLOAD (R75, R73, R46): OK with no change in IDLE, its reply carrying the
transport summary (R75 says only OK; log 13); otherwise the programme is cut and the channel goes to IDLE with no
source and head 0, its marks, last served count and last present kept. A programme cut is the one new entry of the run
log, reported before TRANSPORT/STATE_CHANGED with cause COMMAND, which stands where the state or the source changed
(R70, R175). -/
def Obligations.LoadSelectAndUnload : Prop :=
  ((∀ (tag : Byte) (a : LoadClipArgs) (c : ChannelId) (u s : State), a.channel.toNat = c.val →
    (1024 ≤ a.clip.toNat ∨ ∃ i, a.angle = some i ∧ 8 ≤ i.toNat) → u.takes (.loadClip tag (.fields a)) s →
    TurnedAway (.loadClip tag (.fields a)) 0x20 tag u s .badValue) ∧
  ∀ (tag : Byte) (a : LoadClipArgs) (c : ChannelId) (u s : State), a.channel.toNat = c.val →
    a.clip.toNat < 1024 → (∀ i, a.angle = some i → i.toNat < 8) → u.takes (.loadClip tag (.fields a)) s →
    (s.channel c).state ≠ .following →
    (s.clipOf a.clip.toNat = none → TurnedAway (.loadClip tag (.fields a)) 0x20 tag u s .notFound) ∧
    ∀ k, s.clipOf a.clip.toNat = some k →
      let index := (a.angle.map (·.toNat)).getD k.primary
      ((k.state = .lost ∨ ∀ g, k.angles[index]? = some g → g.present = false) →
        TurnedAway (.loadClip tag (.fields a)) 0x20 tag u s .notFound) ∧
      ∀ g, k.state ≠ .lost → k.angles[index]? = some g → g.present = true →
        ∃ t, Accepted (.loadClip tag (.fields a)) 0x20 tag u t (.transport (t.transport c)) ∧ s.channelFrame t c ∧
          t.channel c = { s.channel c with
            state := .cued, source := .clip a.clip.toNat index, head := g.inSerial * 1200, speed := 0, target := 0
            bounce := none, edgeHold := false, jogAcc := (s.channel c).jogLeft } ∧
          s.programmeCut t c .cutShort ∧
          (s.runLog.entries.length ≤ 256 → s.raised t (s.cutReports c (t.channel c) .command)) ∧
          (t.queue c).session = some (freshSession a.clip.toNat g.train)) ∧
  ((∀ (tag : Byte) (a : ChannelTrainArgs) (c : ChannelId) (u s : State), a.channel.toNat = c.val →
    16 ≤ a.train.toNat → u.takes (.selectTrain tag (.fields a)) s →
    TurnedAway (.selectTrain tag (.fields a)) 0x21 tag u s .badValue) ∧
  (∀ (tag : Byte) (a : ChannelTrainArgs) (c : ChannelId) (x : TrainId) (u s : State), a.channel.toNat = c.val →
    a.train.toNat = x.val → u.takes (.selectTrain tag (.fields a)) s → (s.channel c).state ≠ .following →
    ((s.train x).recordEdge = none → TurnedAway (.selectTrain tag (.fields a)) 0x21 tag u s .noSource) ∧
    ∀ edge, (s.train x).recordEdge = some edge →
      ∃ t, Accepted (.selectTrain tag (.fields a)) 0x21 tag u t (.transport (t.transport c)) ∧ s.channelFrame t c ∧
        s.programmeCut t c .cutShort ∧
        (s.runLog.entries.length ≤ 256 → s.raised t (s.cutReports c (t.channel c) .command)) ∧
        (t.queue c).session = none ∧
        ((s.channel c).state ≠ .live → ∃ head,
          t.channel c = { s.channel c with
            state := .cued, source := .train x, head := head, speed := 0, target := 0, bounce := none
            edgeHold := false, jogAcc := (s.channel c).jogLeft } ∧
          ((s.channel c).state = .idle → head = edge * 1200) ∧
          (∀ y, (s.channel c).state ≠ .idle → s.sourceTrain (s.channel c).source = some y →
            (∀ h, s.mapHead y x (s.channel c).head = .found h → head = h) ∧
            (s.mapHead y x (s.channel c).head = .untimed ∨ s.mapHead y x (s.channel c).head = .notFound →
              head = edge * 1200))) ∧
        (∀ oldest, (s.channel c).state = .live → (s.train x).oldestEdge = some oldest →
          t.channel c = { s.channel c with
            source := .train x, bounce := none, edgeHold := false
            head := (if edge < oldest + (s.channel c).liveDelay then oldest else edge - (s.channel c).liveDelay)
              * 1200 })) ∧
  (∀ (tag b : Byte) (c : ChannelId) (u s : State), b.toNat = c.val → u.takes (.unload tag (.fields b)) s →
    ((s.channel c).state = .idle →
      Accepted (.unload tag (.fields b)) 0x22 tag u s (.transport (s.transport c))) ∧
    ((s.channel c).state ≠ .idle → (s.channel c).state ≠ .following →
      ∃ t, Accepted (.unload tag (.fields b)) 0x22 tag u t (.transport (t.transport c)) ∧ s.channelFrame t c ∧
        t.channel c = { s.channel c with
          state := .idle, source := .noSource, head := 0, speed := 0, target := 0, bounce := none
          edgeHold := false, jogAcc := 0 } ∧
        s.programmeCut t c .cutShort ∧
        (s.runLog.entries.length ≤ 256 → s.raised t (s.cutReports c (t.channel c) .command)) ∧
        (t.queue c).session = none)))

/-- PLAY (R76, R87, R73): NO_SOURCE in IDLE. The target is the speed given, clamped; else in queue play the speed of
the entry being played; else on a clip with a bounce context +Vf or −Vr; else the clip's play speed; else 1200. In
PLAYING only the target changes; from another state the channel enters PLAYING, from LIVE with C at 1200, with a new
bounce context and an open session on a clip. SET_SPEED and PAUSE (R77, R78, R46). SET_SPEED sets the target, clamped,
in PLAYING and SHUTTLE, and is refused with NO_SOURCE in IDLE and BUSY in CUED, JOG and LIVE. PAUSE enters CUED at once
with the head where it stands, the session open and queue play going on; it is refused in IDLE and changes nothing in
CUED, where its reply carries the transport summary (R78 says only OK; log 13). A change of state is reported with
cause COMMAND (R70). -/
def Obligations.PlaySpeedAndPause : Prop :=
  (∀ (tag : Byte) (a : PlayArgs) (c : ChannelId) (u s : State), a.channel.toNat = c.val →
    u.takes (.play tag (.fields a)) s → (s.channel c).state ≠ .following →
    ((s.channel c).state = .idle → TurnedAway (.play tag (.fields a)) 0x23 tag u s .noSource) ∧
    ((s.channel c).state ≠ .idle → ∃ t v,
      Accepted (.play tag (.fields a)) 0x23 tag u t (.transport (t.transport c)) ∧ s.channelFrame t c ∧
      t.runLog = s.runLog ∧ s.raised t (s.changeReport c (t.channel c) .command) ∧
      (∀ w, a.speed = some w → v = max (-38400) (min w.toInt 38400)) ∧
      (∀ e rest, a.speed = none → (s.queue c).playing = true → (s.queue c).entries = e :: rest →
        v = e.speed.getD (((s.clipOf e.clip).bind (·.speed)).getD 1200)) ∧
      (∀ id i b, a.speed = none → (s.queue c).playing = false → (s.channel c).source = .clip id i →
        (s.channel c).bounce = some b →
        let set := (s.clipOf id).bind (·.bounce)
        v = if b.direction = .forward then (set.map (·.forwardSpeed)).getD 1200
          else -((set.map (·.reverseSpeed)).getD 1200)) ∧
      (∀ id i, a.speed = none → (s.queue c).playing = false → (s.channel c).source = .clip id i →
        (s.channel c).bounce = none → v = ((s.clipOf id).bind (·.speed)).getD 1200) ∧
      (∀ x, a.speed = none → (s.queue c).playing = false → (s.channel c).source = .train x → v = 1200) ∧
      ((s.channel c).state = .playing → t = s.setChannel c { s.channel c with target := v }) ∧
      ((s.channel c).state ≠ .playing →
        (∃ bounce, t.channel c = { s.channel c with
            state := .playing, target := v, edgeHold := false, jogAcc := (s.channel c).jogLeft, bounce := bounce
            speed := if (s.channel c).state = .live then 1200 else (s.channel c).speed } ∧
          (∀ x, (s.channel c).source = .train x → bounce = none) ∧
          (∀ id i, (s.channel c).source = .clip id i → bounce = some
            { direction := if 0 ≤ v then .forward else .reverse
              passes := ((s.clipOf id).bind (·.bounce)).bind fun b => if b.passes = 0 then none else some b.passes })) ∧
        (t.queue c).entries = (s.queue c).entries ∧ (t.queue c).playing = (s.queue c).playing ∧
        (∀ r, (s.queue c).session = some r → (t.queue c).session = some r) ∧
        (∀ id i g, (s.queue c).session = none → (s.channel c).source = .clip id i → s.angleOf id i = some g →
          (t.queue c).session = some (freshSession id g.train))))) ∧
  ((∀ (tag : Byte) (a : ChannelWordArgs) (c : ChannelId) (u s : State), a.channel.toNat = c.val →
    u.takes (.setSpeed tag (.fields a)) s →
    ((s.channel c).state = .idle → TurnedAway (.setSpeed tag (.fields a)) 0x24 tag u s .noSource) ∧
    ((s.channel c).state = .cued ∨ (s.channel c).state = .jog ∨ (s.channel c).state = .live →
      TurnedAway (.setSpeed tag (.fields a)) 0x24 tag u s .busy) ∧
    ((s.channel c).state = .playing ∨ (s.channel c).state = .shuttle →
      let t := s.setChannel c { s.channel c with target := max (-38400) (min a.value.toInt 38400) }
      Accepted (.setSpeed tag (.fields a)) 0x24 tag u t (.transport (t.transport c)))) ∧
  ∀ (tag b : Byte) (c : ChannelId) (u s : State), b.toNat = c.val → u.takes (.pause tag (.fields b)) s →
    ((s.channel c).state = .idle → TurnedAway (.pause tag (.fields b)) 0x25 tag u s .noSource) ∧
    ((s.channel c).state = .cued → Accepted (.pause tag (.fields b)) 0x25 tag u s (.transport (s.transport c))) ∧
    ((s.channel c).state ∈ [.playing, .shuttle, .jog, .live] →
      ∃ t, Accepted (.pause tag (.fields b)) 0x25 tag u t (.transport (t.transport c)) ∧ s.channelFrame t c ∧
        t.runLog = s.runLog ∧ t.queue c = s.queue c ∧ s.raised t (s.changeReport c (t.channel c) .command) ∧
        t.channel c = { s.channel c with
          state := .cued, speed := 0, target := 0, bounce := none, edgeHold := false
          jogAcc := (s.channel c).jogLeft }))

/-- GOTO (R79, R33): the serial given, or the one found for a valid label and a phase below M, is clamped to the bounds
of the source and becomes the head; the state is kept, but LIVE becomes CUED; the edge-hold flag is cleared. A GOTO
with both forms or neither is refused with BAD_VALUE, one in IDLE with NO_SOURCE, and a timecode that is not found with
NOT_FOUND. LIVE (R80, R58, R46): NO_SOURCE in IDLE, BAD_VALUE for a delay above 1000; otherwise the programme is cut,
the source train becomes the TRAIN source, a given delay is taken, and the head is placed at once the delay behind the
record edge, or at the oldest edge when that lies higher. Both report a change of state or source with cause COMMAND,
LIVE after the run log entry of the session it cuts (R70, R175). -/
def Obligations.GotoAndLive : Prop :=
  (∀ (tag : Byte) (a : GotoArgs) (c : ChannelId) (u s : State), a.channel.toNat = c.val →
    u.takes (.goto tag (.fields a)) s →
    ((a.serial = none ↔ a.timecode = none) → TurnedAway (.goto tag (.fields a)) 0x26 tag u s .badValue) ∧
    (∀ f, a.serial = none → a.timecode = some f → s.timebase.labelValid (labelOf f) = false →
      TurnedAway (.goto tag (.fields a)) 0x26 tag u s .badValue) ∧
    ((∃ w, a.serial = some w ∧ a.timecode = none) ∨
        (∃ f, a.serial = none ∧ a.timecode = some f ∧ s.timebase.labelValid (labelOf f) = true) →
      (s.channel c).state = .idle → TurnedAway (.goto tag (.fields a)) 0x26 tag u s .noSource) ∧
    (∀ f x, a.serial = none → a.timecode = some f → s.timebase.labelValid (labelOf f) = true →
      (s.channel c).state ≠ .idle → (s.channel c).state ≠ .following →
      s.sourceTrain (s.channel c).source = some x →
      ((s.train x).multiple ≤ f.phase.toNat → TurnedAway (.goto tag (.fields a)) 0x26 tag u s .badValue) ∧
      (f.phase.toNat < (s.train x).multiple →
        s.serialAt x (s.timebase.number (labelOf f)) f.phase.toNat = none →
        TurnedAway (.goto tag (.fields a)) 0x26 tag u s .notFound)) ∧
    ∀ target lo hi, (s.channel c).state ≠ .idle → (s.channel c).state ≠ .following →
      s.bounds (s.channel c).source = some (lo, hi) →
      ((∃ w, a.serial = some w ∧ a.timecode = none ∧ target = w.toNat) ∨
        ∃ f x, a.serial = none ∧ a.timecode = some f ∧ s.timebase.labelValid (labelOf f) = true ∧
          s.sourceTrain (s.channel c).source = some x ∧ f.phase.toNat < (s.train x).multiple ∧
          s.serialAt x (s.timebase.number (labelOf f)) f.phase.toNat = some target) →
      let head := (if target < lo then lo else if hi < target then hi else target) * 1200
      ∃ t, Accepted (.goto tag (.fields a)) 0x26 tag u t (.transport (t.transport c)) ∧ s.channelFrame t c ∧
        t.runLog = s.runLog ∧ t.queue c = s.queue c ∧ s.raised t (s.changeReport c (t.channel c) .command) ∧
        ((s.channel c).state ≠ .live →
          t.channel c = { s.channel c with head := head, edgeHold := false } ∧ t.reports = s.reports) ∧
        ((s.channel c).state = .live → t.channel c = { s.channel c with
          state := .cued, speed := 0, target := 0, head := head, edgeHold := false })) ∧
  (∀ (tag : Byte) (a : LiveArgs) (c : ChannelId) (u s : State), a.channel.toNat = c.val →
    u.takes (.live tag (.fields a)) s →
    (∀ w, a.delay = some w → 1000 < w.toNat → TurnedAway (.live tag (.fields a)) 0x27 tag u s .badValue) ∧
    ((∀ w, a.delay = some w → w.toNat ≤ 1000) → (s.channel c).state = .idle →
      TurnedAway (.live tag (.fields a)) 0x27 tag u s .noSource) ∧
    ∀ x oldest edge, (∀ w, a.delay = some w → w.toNat ≤ 1000) → (s.channel c).state ≠ .idle →
      (s.channel c).state ≠ .following → s.sourceTrain (s.channel c).source = some x →
      (s.train x).oldestEdge = some oldest → (s.train x).recordEdge = some edge →
      let d := (a.delay.map (·.toNat)).getD (s.channel c).liveDelay
      ∃ t, Accepted (.live tag (.fields a)) 0x27 tag u t (.transport (t.transport c)) ∧ s.channelFrame t c ∧
        s.programmeCut t c .cutShort ∧
        (s.runLog.entries.length ≤ 256 → s.raised t (s.cutReports c (t.channel c) .command)) ∧
        (t.queue c).session = none ∧
        t.channel c = { s.channel c with
          state := .live, source := .train x, speed := 1200, target := 1200, liveDelay := d, bounce := none
          edgeHold := false, jogAcc := (s.channel c).jogLeft
          head := (if edge < oldest + d then oldest else edge - d) * 1200 })

/-- The settings commands (R92, R93): each sets one field of the channel record, in every state, and changes nothing
else; a value outside its range is refused with BAD_VALUE. -/
def Obligations.ChannelSettings : Prop :=
  ∀ (tag : Byte) (c : ChannelId) (u s : State),
    (∀ a : ChannelWordArgs, a.channel.toNat = c.val → u.takes (.setAccel tag (.fields a)) s →
      (1 ≤ a.value.toInt ∧ a.value.toInt ≤ 38400 → Accepted (.setAccel tag (.fields a)) 0x28 tag u
        (s.setChannel c { s.channel c with accel := a.value.toInt }) .empty) ∧
      (a.value.toInt < 1 ∨ 38400 < a.value.toInt →
        TurnedAway (.setAccel tag (.fields a)) 0x28 tag u s .badValue)) ∧
    (∀ a : SetBlendArgs, a.channel.toNat = c.val → u.takes (.setBlend tag (.fields a)) s →
      Accepted (.setBlend tag (.fields a)) 0x29 tag u (s.setChannel c { s.channel c with blend := a.blend }) .empty) ∧
    (u.takes (.setBlend tag .badByte) s → TurnedAway (.setBlend tag .badByte) 0x29 tag u s .badValue) ∧
    (∀ a : SetEndActionArgs, a.channel.toNat = c.val → u.takes (.setEndAction tag (.fields a)) s →
      Accepted (.setEndAction tag (.fields a)) 0x2A tag u
        (s.setChannel c { s.channel c with endAction := a.action }) .empty) ∧
    (u.takes (.setEndAction tag .badByte) s → TurnedAway (.setEndAction tag .badByte) 0x2A tag u s .badValue) ∧
    (∀ a : ChannelByteArgs, a.channel.toNat = c.val → u.takes (.setTargetBank tag (.fields a)) s →
      (∀ b : Fin 16, a.value.toNat = b.val → Accepted (.setTargetBank tag (.fields a)) 0x2B tag u
        (s.setChannel c { s.channel c with targetBank := b }) .empty) ∧
      (16 ≤ a.value.toNat → TurnedAway (.setTargetBank tag (.fields a)) 0x2B tag u s .badValue)) ∧
    ∀ a : AngleGroupArgs, a.channel.toNat = c.val → u.takes (.setAngleGroup tag (.fields a)) s →
      (∀ xs : List TrainId, a.trains.map (·.toNat) = xs.map (·.val) → xs.length ≤ 8 → xs.Nodup →
        Accepted (.setAngleGroup tag (.fields a)) 0x2C tag u
          (s.setChannel c { s.channel c with angleGroup := xs }) .empty) ∧
      (8 < a.trains.length ∨ (∃ b ∈ a.trains, 16 ≤ b.toNat) ∨ ¬a.trains.Nodup →
        TurnedAway (.setAngleGroup tag (.fields a)) 0x2C tag u s .badValue)

/-- Every change of a channel's state or source is reported, and nothing else is (R70). The one operation by which an
event changes them raises TRANSPORT/STATE_CHANGED with the state before and after, the source and the head serial after
and the cause, exactly when the state or the source has changed; it empties the jog accumulator on leaving JOG (R46),
makes the bounce context absent on leaving PLAYING (R87) and clears the edge-hold flag on leaving SHUTTLE (R83). And no
command but a reset changes a channel's state or source without such a report, with the state and source it leaves,
standing in the report queue or on the lane, or the class's lost flag set, while the class is enabled (R70, R183); but
for the rows by which one byte may complete several records, the state before is the one the command met. -/
def Obligations.StateChangesReported : Prop :=
  (∀ (s : State) (c : ChannelId) (cause : Cause) (new : Channel),
    let old := s.channel c
    let t := s.commit c cause new
    t.channel c = { new with
      jogAcc := if old.state = .jog ∧ new.state ≠ .jog then 0 else new.jogAcc
      bounce := if old.state = .playing ∧ new.state ≠ .playing then none else new.bounce
      edgeHold := if old.state = .shuttle ∧ new.state ≠ .shuttle then false else new.edgeHold } ∧
    s.channelFrame t c ∧ t.queue c = s.queue c ∧ t.runLog = s.runLog ∧
    (old.state = new.state → old.source = new.source → t.reports = s.reports) ∧
    (old.state ≠ new.state ∨ old.source ≠ new.source → t.reports = (s.raise
      (.stateChanged c old.state new.state ⟨new.source, s.sourceTrain new.source⟩ (new.head / 1200) cause)).reports)) ∧
  ∀ (i : Instr) (s t : State) (c : ChannelId), exec i s = .next t → i ≠ .powerOnReset → i ≠ .resetInputRelease →
    (∀ tag a, i ≠ .resetAll tag a) → (∀ tag a, i ≠ .resetPlayback tag a) →
    s.reports.settings[(classIndex .transport).val].enabled = true →
    (t.channel c).state ≠ (s.channel c).state ∨ (t.channel c).source ≠ (s.channel c).source →
    t.reports.lost[(classIndex .transport).val] = true ∨
      ∃ before x serial cause time priority,
        let r : Report := ⟨.stateChanged c before (t.channel c).state ⟨(t.channel c).source, x⟩ serial cause, time,
          priority⟩
        ((∀ l b, i ≠ .receivedByte l b) → (∀ l b, i ≠ .framingDiscard l b) → (∀ l, i ≠ .receiverTimeout l) →
          before = (s.channel c).state) ∧
        (r ∈ t.reports.queue ∨ t.port.sending = some (.report r))

/-! ## Angles and gangs -/

/-- ANGLE (R150, R151): the checks in their order, and an accepted switch, which changes the source's angle and the
head to the mapped position, clears the edge-hold flag, tells the open session the new train, and keeps everything
else; the angle already played changes nothing, its reply carrying the same fields (R150 says only OK; log 13).
ANGLE_NEXT (R152, R153): on a clip the other angles are tried from the one after the current one, wrapping; on a train
the trains of the angle group from the one after the current train, wrapping, without it. The first not passed over is
taken; when all are passed over the command is refused, with UNTIMED when the head's frame is untimed and something was
tried (log 16), and NOT_FOUND otherwise. The change of source is reported with cause COMMAND (R70). -/
def Obligations.AngleAndAngleNext : Prop :=
  (∀ (tag : Byte) (a : ChannelByteArgs) (c : ChannelId) (u s : State), a.channel.toNat = c.val →
    u.takes (.angle tag (.fields a)) s →
    let i := a.value.toNat
    let ch := s.channel c
    (8 ≤ i → TurnedAway (.angle tag (.fields a)) 0x30 tag u s .badValue) ∧
    (i < 8 → ch.state = .idle → TurnedAway (.angle tag (.fields a)) 0x30 tag u s .noSource) ∧
    (∀ x, i < 8 → ch.state ≠ .idle → ch.state ≠ .following → ch.source = .train x →
      TurnedAway (.angle tag (.fields a)) 0x30 tag u s .notFound) ∧
    ∀ id cur old, i < 8 → ch.state ≠ .idle → ch.state ≠ .following → ch.source = .clip id cur →
      s.angleOf id cur = some old →
      ((∀ g, s.angleOf id i = some g → g.present = false) →
        TurnedAway (.angle tag (.fields a)) 0x30 tag u s .notFound) ∧
      ∀ g, s.angleOf id i = some g → g.present = true →
        (i = cur → Accepted (.angle tag (.fields a)) 0x30 tag u s (.angle (s.transport c) i g.train)) ∧
        (i ≠ cur → s.mapHead old.train g.train ch.head = .untimed →
          TurnedAway (.angle tag (.fields a)) 0x30 tag u s .untimed) ∧
        (i ≠ cur → s.mapHead old.train g.train ch.head = .notFound →
          TurnedAway (.angle tag (.fields a)) 0x30 tag u s .notFound) ∧
        ∀ h, i ≠ cur → s.mapHead old.train g.train ch.head = .found h →
          (h / 1200 < g.inSerial ∨ g.outSerial < h / 1200 →
            TurnedAway (.angle tag (.fields a)) 0x30 tag u s .notFound) ∧
          (g.inSerial ≤ h / 1200 → h / 1200 ≤ g.outSerial → ∃ t,
            Accepted (.angle tag (.fields a)) 0x30 tag u t (.angle (t.transport c) i g.train) ∧ s.channelFrame t c ∧
            t.channel c = { ch with source := .clip id i, head := h, edgeHold := false } ∧
            t.queue c = { s.queue c with
              session := (s.queue c).session.map fun r => { r with train := g.train } } ∧
            t.runLog = s.runLog ∧
            t.reports = (s.raise (.stateChanged c ch.state ch.state ⟨.clip id i, some g.train⟩ (h / 1200)
              .command)).reports)) ∧
  (∀ (tag b : Byte) (c : ChannelId) (u s : State), b.toNat = c.val → u.takes (.angleNext tag (.fields b)) s →
    let ch := s.channel c
    (ch.state = .idle → TurnedAway (.angleNext tag (.fields b)) 0x31 tag u s .noSource) ∧
    (∀ id cur old k, ch.state ≠ .idle → ch.state ≠ .following → ch.source = .clip id cur → s.clipOf id = some k →
      s.angleOf id cur = some old →
      let order := (List.range (k.angles.length - 1)).map fun j => (cur + 1 + j) % k.angles.length
      let passed := fun i => ∀ g, s.angleOf id i = some g → g.present = true →
        ∀ h, s.mapHead old.train g.train ch.head = .found h → h / 1200 < g.inSerial ∨ g.outSerial < h / 1200
      ((∀ i ∈ order, passed i) → TurnedAway (.angleNext tag (.fields b)) 0x31 tag u s
        (if order ≠ [] ∧ s.timecodeAt old.train (ch.head / 1200) = .untimed then .untimed else .notFound)) ∧
      ∀ pre i post g h, order = pre ++ i :: post → (∀ j ∈ pre, passed j) → s.angleOf id i = some g →
        g.present = true → s.mapHead old.train g.train ch.head = .found h → g.inSerial ≤ h / 1200 →
        h / 1200 ≤ g.outSerial → ∃ t,
          Accepted (.angleNext tag (.fields b)) 0x31 tag u t (.angleNext (t.transport c) i g.train pre.length) ∧
          s.channelFrame t c ∧ t.runLog = s.runLog ∧ s.raised t (s.changeReport c (t.channel c) .command) ∧
          t.channel c = { ch with source := .clip id i, head := h, edgeHold := false } ∧
          t.queue c = { s.queue c with
            session := (s.queue c).session.map fun r => { r with train := g.train } }) ∧
    ∀ x order, ch.state ≠ .idle → ch.state ≠ .following → ch.source = .train x →
      ((x ∉ ch.angleGroup ∧ order = ch.angleGroup) ∨ ∃ g1 g2, ch.angleGroup = g1 ++ x :: g2 ∧ x ∉ g1 ∧
        order = (g2 ++ g1).filter (· != x)) →
      let passed := fun y => (s.train y).recordEdge = none ∨
        (ch.state ≠ .live ∧ ∀ h, s.mapHead x y ch.head ≠ .found h)
      ((∀ y ∈ order, passed y) → TurnedAway (.angleNext tag (.fields b)) 0x31 tag u s
        (if order ≠ [] ∧ s.timecodeAt x (ch.head / 1200) = .untimed then .untimed else .notFound)) ∧
      ∀ pre y post edge oldest, order = pre ++ y :: post → (∀ z ∈ pre, passed z) →
        (s.train y).recordEdge = some edge → (s.train y).oldestEdge = some oldest →
        (∀ h, ch.state ≠ .live → s.mapHead x y ch.head = .found h → ∃ t,
          Accepted (.angleNext tag (.fields b)) 0x31 tag u t (.trainNext (t.transport c) y pre.length) ∧
          s.channelFrame t c ∧ t.queue c = s.queue c ∧ t.runLog = s.runLog ∧
          s.raised t (s.changeReport c (t.channel c) .command) ∧
          t.channel c = { ch with source := .train y, head := h, edgeHold := false }) ∧
        (ch.state = .live → ∃ t,
          Accepted (.angleNext tag (.fields b)) 0x31 tag u t (.trainNext (t.transport c) y pre.length) ∧
          s.channelFrame t c ∧ t.queue c = s.queue c ∧ t.runLog = s.runLog ∧
          s.raised t (s.changeReport c (t.channel c) .command) ∧
          t.channel c = { ch with
            source := .train y, edgeHold := false
            head := (if edge < oldest + ch.liveDelay then oldest else edge - ch.liveDelay) * 1200 }))

/-- GANG and UNGANG (R155, R156, R157, R162). GANG on the first channel of a pair makes the second a follower on the
train named, with its programme cut and its head mapped from the leader, else from its own head, else at the record
edge (a head just pushed, or in a hole of that train itself, maps by R41, log 39); the leader changes in its role
alone. Its reports: RUNLOG/APPENDED for the session cut, TRANSPORT/STATE_CHANGED where the follower's state or source
changed, and EDGE/FOLLOW_LOST where the leader cannot be followed (step 5). UNGANG of a ganged pair leaves the follower
CUED where it stands and both roles NONE; of another pair it changes nothing, its reply the transport summary (R162
says only OK; log 13). -/
def Obligations.GangAndUngang : Prop :=
  (∀ (tag : Byte) (a : ChannelTrainArgs) (c : ChannelId) (u s : State), a.channel.toNat = c.val →
    u.takes (.gang tag (.fields a)) s →
    (16 ≤ a.train.toNat → TurnedAway (.gang tag (.fields a)) 0x32 tag u s .badValue) ∧
    (a.train.toNat < 16 → c ∈ [1, 3, 5] → TurnedAway (.gang tag (.fields a)) 0x32 tag u s .ganged) ∧
    ∀ (x : TrainId) (f : ChannelId), a.train.toNat = x.val → (c, f) ∈ [(0, 1), (2, 3), (4, 5)] →
      ((s.train x).recordEdge = none → TurnedAway (.gang tag (.fields a)) 0x32 tag u s .noSource) ∧
      ∀ edge, (s.train x).recordEdge = some edge → ∃ t head follow,
        Accepted (.gang tag (.fields a)) 0x32 tag u t (.gang (t.transport f) follow) ∧
        t.channel f = { s.channel f with
          state := .following, source := .train x, head := head, speed := 0, target := 0, bounce := none
          edgeHold := false, jogAcc := 0, role := .follower follow } ∧
        t.channel c = { s.channel c with role := .leader } ∧
        (∀ h, s.mapFrom c x = .ok h → head = h ∧ follow = .tracking) ∧
        (∀ r h, s.mapFrom c x = .error r → s.mapFrom f x = .ok h → head = h ∧ follow = .holding) ∧
        (∀ r q, s.mapFrom c x = .error r → s.mapFrom f x = .error q → head = edge * 1200 ∧ follow = .holding) ∧
        s.programmeCut t f .cutShort ∧ (t.queue f).session = none ∧ s.panelsLeft t f ∧
        (s.runLog.entries.length ≤ 256 → s.logged t (s.endedOn .cutShort [f]) ∧
          ∃ lost, (∀ h, s.mapFrom c x = .ok h → lost = []) ∧
            (∀ r, s.mapFrom c x = .error r → lost = [.followLost f c x (head / 1200) r]) ∧
            s.raised t (appendReports s.runLog.entries.length (s.endedOn .cutShort [f]) ++
              (if (s.channel f).state = .following ∧ (s.channel f).source = .train x then [] else
                [.stateChanged f (s.channel f).state .following ⟨.train x, some x⟩ (head / 1200) .gang]) ++ lost)) ∧
        (∀ d, d ≠ c → d ≠ f → t.channel d = s.channel d) ∧ (∀ d, d ≠ f → t.queue d = s.queue d) ∧
        s.keepsStore t ∧ s.keepsClips t ∧ s.keepsFaults t ∧ s.keepsLinks t ∧ t.freeReads = s.freeReads) ∧
  ∀ (tag b : Byte) (c l f : ChannelId) (u s : State), b.toNat = c.val → (l, f) ∈ [(0, 1), (2, 3), (4, 5)] →
    c = l ∨ c = f → u.takes (.ungang tag (.fields b)) s →
    (((s.channel l).role ≠ .leader ∨ ∀ w, (s.channel f).role ≠ .follower w) →
      Accepted (.ungang tag (.fields b)) 0x33 tag u s (.transport (s.transport f))) ∧
    ∀ w, (s.channel l).role = .leader → (s.channel f).role = .follower w → (s.channel f).state = .following →
      ∃ t, Accepted (.ungang tag (.fields b)) 0x33 tag u t (.transport (t.transport f)) ∧
        t.channel f = { s.channel f with state := .cued, speed := 0, target := 0, role := .noGang } ∧
        t.channel l = { s.channel l with role := .noGang } ∧
        (∀ d, d ≠ l → d ≠ f → t.channel d = s.channel d) ∧ t.queues = s.queues ∧ t.runLog = s.runLog ∧
        t.panels = s.panels ∧ s.keepsStore t ∧ s.keepsClips t ∧ s.keepsFaults t ∧ s.keepsLinks t ∧
        t.reports = (s.raise (.stateChanged f .following .cued
          ⟨(s.channel f).source, s.sourceTrain (s.channel f).source⟩ ((s.channel f).head / 1200) .gang)).reports

/-! ## Operator panels -/

/-- BIND (R97, R98): refused with BAD_VALUE for a panel or channel out of range and with GANGED for a channel in
FOLLOWING; otherwise the panel's binding is set, another panel bound to the channel is unbound, and each panel so
changed is DISARMED with no pending echo and its silence restarted. No channel changes. SET_CURVE, QUERY_CURVE and
SET_SILENCE (R99, R107): a panel outside 0 to 3 is refused with BAD_VALUE; a list that breaks a curve rule with
BAD_CURVE; otherwise the curve, or the silence time, of that panel alone is set; and the curve is answered point by
point. The lever's speed (R100): on a curve that keeps the rules of R99, a position from 0 to 1000 takes the value of
the segment it lies in, by integer division, and a negative position mirrors the positive one. -/
def Obligations.BindAndPanelSettings : Prop :=
  (∀ (tag : Byte) (a : BindArgs) (u s : State), u.takes (.bind tag (.fields a)) s →
    (4 ≤ a.panel.toNat ∨ (6 ≤ a.channel.toNat ∧ a.channel ≠ 0xFF) →
      TurnedAway (.bind tag (.fields a)) 0x38 tag u s .badValue) ∧
    (∀ c : ChannelId, a.panel.toNat < 4 → a.channel.toNat = c.val → (s.channel c).state = .following →
      TurnedAway (.bind tag (.fields a)) 0x38 tag u s .ganged) ∧
    ∀ (p : PanelId) (b : Option ChannelId), a.panel.toNat = p.val → s.tableLaw →
      ((a.channel = 0xFF ∧ b = none) ∨ ∃ c : ChannelId, a.channel.toNat = c.val ∧ b = some c ∧
        (s.channel c).state ≠ .following) →
      ∃ t displaced, Accepted (.bind tag (.fields a)) 0x38 tag u t (.bind (s.panel p).binding displaced) ∧
        t.panel p = { s.panel p with
          binding := b, arm := .disarmed, pendingEcho := none, lastRecord := s.time } ∧
        (∀ q, q ≠ p → b ≠ none → (s.panel q).binding = b → displaced = some q ∧ t.panel q = { s.panel q with
          binding := none, arm := .disarmed, pendingEcho := none, lastRecord := s.time }) ∧
        (∀ q, q ≠ p → (b = none ∨ (s.panel q).binding ≠ b) → displaced ≠ some q ∧ t.panel q = s.panel q) ∧
        { t with panels := s.panels } = s) ∧
  (((∀ (tag : Byte) (a : SetCurveArgs) (u s : State), u.takes (.setCurve tag (.fields a)) s →
    let ps := a.points.map fun q => (q.lever.toInt, q.speed.toInt)
    let good := 2 ≤ ps.length ∧ ps.length ≤ 16 ∧ ps.head? = some (0, 0) ∧ ps.getLast?.map (·.1) = some 1000 ∧
      ps.Pairwise (fun m n => m.1 < n.1 ∧ m.2 ≤ n.2) ∧ ∀ m ∈ ps, 0 ≤ m.2 ∧ m.2 ≤ 38400
    (4 ≤ a.panel.toNat → TurnedAway (.setCurve tag (.fields a)) 0x39 tag u s .badValue) ∧
    ∀ p : PanelId, a.panel.toNat = p.val →
      (¬good → TurnedAway (.setCurve tag (.fields a)) 0x39 tag u s .badCurve) ∧
      (good → ∃ curve, (curve.map fun q => ((q.lever : Int), (q.speed : Int))) = ps ∧
        Accepted (.setCurve tag (.fields a)) 0x39 tag u
          (s.setPanel p { s.panel p with curve := curve }) .empty)) ∧
  (∀ (tag b : Byte) (u s : State), u.takes (.queryCurve tag (.fields b)) s →
    (4 ≤ b.toNat → TurnedAway (.queryCurve tag (.fields b)) 0x3A tag u s .badValue) ∧
    ∀ p : PanelId, b.toNat = p.val →
      Accepted (.queryCurve tag (.fields b)) 0x3A tag u s (.curve (s.panel p).curve)) ∧
  ∀ (tag : Byte) (a : SetSilenceArgs) (u s : State), u.takes (.setSilence tag (.fields a)) s →
    (4 ≤ a.panel.toNat ∨ a.ms.toNat < 50 ∨ 2000 < a.ms.toNat →
      TurnedAway (.setSilence tag (.fields a)) 0x3B tag u s .badValue) ∧
    ∀ p : PanelId, a.panel.toNat = p.val → 50 ≤ a.ms.toNat → a.ms.toNat ≤ 2000 →
      Accepted (.setSilence tag (.fields a)) 0x3B tag u
        (s.setPanel p { s.panel p with silence := a.ms.toNat }) .empty) ∧
  (∀ (curve pre post : List CurvePoint) (p q : CurvePoint) (l : Nat), curve = pre ++ p :: q :: post →
    curve.Pairwise (fun m n => m.lever < n.lever ∧ m.speed ≤ n.speed) → curve.head? = some ⟨0, 0⟩ →
    p.lever ≤ l → l ≤ q.lever →
    leverSpeed curve l = ((p.speed + (q.speed - p.speed) * (l - p.lever) / (q.lever - p.lever) : Nat) : Int) ∧
    leverSpeed curve (-l) = -leverSpeed curve l))

/-- WHEEL, JOG, a panel record that is ignored, and the dead-man (R96, R101 to R104, R108, R73, R46). Every record
restarts the panel's silence. A lever acts only from an armed panel, and is armed by a WHEEL at neutral; outside
neutral it takes CUED, JOG, PLAYING and LIVE into SHUTTLE and sets the target there; at neutral it sets the target of
SHUTTLE to 0. A JOG takes every state but IDLE and FOLLOWING into JOG and adds its count within ±1023. A change of
state is reported with cause LEVER or JOG (R70). An expired dead-man sets the target to 0 and the panel to LOST, with
fault PANEL_LOST; one that has not run out does nothing (log 7). -/
def Obligations.PanelRecords : Prop :=
  (∀ (p : PanelId) (lever : Half) (n : Byte) (s : State), s.resetAsserted = false →
    let s1 := s.setPanel p { s.panel p with lastRecord := s.time }
    Leaves (.ignoredPanelRecord p) s s1 ∧
    ((s.panel p).binding = none → Leaves (.wheel p lever) s s1 ∧ Leaves (.jog p n) s s1) ∧
    ∀ c, (s.panel p).binding = some c →
      let ch := s.channel c
      let v := leverSpeed (s.panel p).curve (max (-1000) (min lever.toInt 1000))
      let s2 := s1.setPanel p { s1.panel p with arm := .armed }
      ((s.panel p).arm ≠ .armed → v ≠ 0 → Leaves (.wheel p lever) s s1) ∧
      (v = 0 → Leaves (.wheel p lever) s
        (if ch.state = .shuttle then s2.setChannel c { ch with target := 0 } else s2)) ∧
      ((s.panel p).arm = .armed → v ≠ 0 → ch.state = .idle ∨ ch.state = .following →
        Leaves (.wheel p lever) s s1) ∧
      ((s.panel p).arm = .armed → v ≠ 0 → ch.state = .shuttle →
        Leaves (.wheel p lever) s (s1.setChannel c { ch with target := v })) ∧
      ((s.panel p).arm = .armed → v ≠ 0 → ch.state ∈ [.cued, .playing, .jog, .live] → ∃ t,
        Leaves (.wheel p lever) s t ∧ s1.channelFrame t c ∧ t.runLog = s.runLog ∧
        s1.raised t (s1.changeReport c (t.channel c) .lever) ∧
        t.channel c = { ch with
          state := .shuttle, target := v, bounce := none, edgeHold := false, jogAcc := ch.jogLeft
          speed := if ch.state = .playing then ch.speed else if ch.state = .live then 1200 else 0 } ∧
        (∀ r, (s.queue c).session = some r → t.queue c = s.queue c) ∧
        (∀ id i g, (s.queue c).session = none → ch.source = .clip id i → s.angleOf id i = some g →
          t.queue c = { s.queue c with session := some (freshSession id g.train) })) ∧
      (n = 0x80 ∨ ch.state = .idle ∨ ch.state = .following → Leaves (.jog p n) s s1) ∧
      (n ≠ 0x80 → ch.state = .jog → Leaves (.jog p n) s
        (s1.setChannel c { ch with jogAcc := max (-1023) (min (ch.jogAcc + n.toInt) 1023) })) ∧
      (n ≠ 0x80 → ch.state ∈ [.cued, .playing, .shuttle, .live] → ∃ t,
        Leaves (.jog p n) s t ∧ s1.channelFrame t c ∧ t.runLog = s.runLog ∧
        s1.raised t (s1.changeReport c (t.channel c) .jog) ∧
        t.channel c = { ch with
          state := .jog, speed := 0, target := 0, bounce := none, edgeHold := false
          jogAcc := max (-1023) (min (ch.jogAcc + n.toInt) 1023) } ∧
        (∀ r, (s.queue c).session = some r → t.queue c = s.queue c) ∧
        (∀ id i g, (s.queue c).session = none → ch.source = .clip id i → s.angleOf id i = some g →
          t.queue c = { s.queue c with session := some (freshSession id g.train) }))) ∧
  ∀ (p : PanelId) (s : State), s.resetAsserted = false →
    (∀ c, (s.panel p).binding = some c → (s.panel p).arm ≠ .lost → (s.channel c).state = .shuttle →
      (s.panel p).silence < elapsed s.time (s.panel p).lastRecord →
      Leaves (.deadManExpiry p) s
        (((s.setChannel c { s.channel c with target := 0 }).setPanel p { s.panel p with arm := .lost }).recordFault
          .panelLost (some p.val))) ∧
    (((s.panel p).binding = none ∨ (s.panel p).arm = .lost ∨
        (∃ c, (s.panel p).binding = some c ∧ (s.channel c).state ≠ .shuttle) ∨
        elapsed s.time (s.panel p).lastRecord ≤ (s.panel p).silence) →
      Leaves (.deadManExpiry p) s s)

/-- KEY (R96, R105, R106, R158). Whatever the key, the panel's silence restarts. A released key and one of an unbound
panel are ignored; on a channel in FOLLOWING every pressed key is refused with GANGED, whatever its code (log 32);
elsewhere a code outside the ten is ignored, and otherwise the key has the effects of its command, with cause KEY (for
QUEUE_NEXT too, by R105; log 15) and no reply, or raises TRANSPORT/KEY_REFUSED with the command's status. A cue moves
the head to the matching mark, or on a clip without one to the angle's end, clamped to the bounds as a GOTO is, and
reports a change out of LIVE with cause KEY; that a mark's phase that comes out at or above M, or number at or above D,
goes to the lookup unchanged is of logs 36 and 18. -/
def Obligations.Keys : Prop :=
  ∀ (p : PanelId) (code press : Byte) (s : State), s.resetAsserted = false →
    let s1 := s.setPanel p { s.panel p with lastRecord := s.time }
    ((s.panel p).binding = none ∨ press ≠ 1 → Leaves (.key p code press) s s1) ∧
    ∀ c, press = 1 → (s.panel p).binding = some c →
      ((s.channel c).state = .following →
        Leaves (.key p code press) s (s1.raise (.keyRefused p c code .ganged))) ∧
      ((s.channel c).state ≠ .following → 10 ≤ code.toNat → Leaves (.key p code press) s s1) ∧
      ((s.channel c).state ≠ .following →
        (∀ f : Verdict, (code.toNat, f) ∈ [(0, playOn c none .key s1), (1, pauseOn c .key s1), (2, markInOn c s1),
            (3, markOutOn c s1), (4, takeOn c s1), (7, liveOn c none .key s1), (8, angleNextOn c .key s1),
            (9, queueNextOn c .key s1)] →
          Leaves (.key p code press) s (match f with
            | .done t _ => t
            | .refuse st => s1.raise (.keyRefused p c code st))) ∧
        ∀ (mark : Option Mark) (side : Angle → Nat),
          (code.toNat = 5 ∧ mark = (s.channel c).markIn ∧ side = (·.inSerial)) ∨
            (code.toNat = 6 ∧ mark = (s.channel c).markOut ∧ side = (·.outSerial)) →
          let refused := fun st => Leaves (.key p code press) s (s1.raise (.keyRefused p c code st))
          ((s.channel c).state = .idle → refused .noSource) ∧
          ∀ x lo hi, (s.channel c).state ≠ .idle → s.sourceTrain (s.channel c).source = some x →
            s.bounds (s.channel c).source = some (lo, hi) →
            let cued := fun target => ∃ t, Leaves (.key p code press) s t ∧ s1.channelFrame t c ∧
              t.queue c = s.queue c ∧ t.runLog = s.runLog ∧ s1.raised t (s1.changeReport c (t.channel c) .key) ∧
              let head := (if target < lo then lo else if hi < target then hi else target) * 1200
              t.channel c = if (s.channel c).state = .live then { s.channel c with
                  state := .cued, speed := 0, target := 0, head := head, edgeHold := false }
                else { s.channel c with head := head, edgeHold := false }
            (∀ m, mark = some m → m.train = x → cued m.serial) ∧
            (∀ m, mark = some m → m.train ≠ x →
              let q := m.phase * 1200 * (s.train x).multiple / (s.train m.train).multiple / 1200
              (s.serialAt x m.tcnum q = none → refused .notFound) ∧
              ∀ serial, s.serialAt x m.tcnum q = some serial → cued serial) ∧
            (∀ y, mark = none → (s.channel c).source = .train y → refused .noMark) ∧
            ∀ id i g, mark = none → (s.channel c).source = .clip id i → s.angleOf id i = some g → cued (side g))

/-! ## Marks, TAKE and the clip table -/

/-- MARK_IN and MARK_OUT (R116, R117): refused with NO_SOURCE when the channel has shown no frame and with UNTIMED when
the frame shown has no timecode; otherwise the mark of that frame is set, the other mark and everything else stay. The
mark's number is counted under the timebase in force and reduced mod D in the reply, which for an older present is log
18's reading. -/
def Obligations.Marks : Prop :=
  ∀ (tag b : Byte) (c : ChannelId) (u s : State), b.toNat = c.val →
    let ch := s.channel c
    (∀ i kind, (i, kind) ∈ [(Instr.markIn tag (.fields b), (0x40 : Byte)), (.markOut tag (.fields b), 0x41)] →
      u.takes i s →
      (ch.lastPresent.bind (·.frame) = none → TurnedAway i kind tag u s .noSource) ∧
      ∀ p f, ch.lastPresent = some p → p.frame = some f → f.timecode = none →
        TurnedAway i kind tag u s .untimed) ∧
    ∀ p f l, ch.lastPresent = some p → p.frame = some f → f.timecode = some l →
      let n := s.timebase.number l.label
      let time : LabelPhase := ⟨s.timebase.label (n % s.timebase.day), l.phase⟩
      (u.takes (.markIn tag (.fields b)) s → Accepted (.markIn tag (.fields b)) 0x40 tag u
        (s.setChannel c { ch with markIn := some ⟨f.train, f.serial, n, l.phase⟩ })
        (.mark f.train f.serial time ch.markOut.isSome)) ∧
      (u.takes (.markOut tag (.fields b)) s → Accepted (.markOut tag (.fields b)) 0x41 tag u
        (s.setChannel c { ch with markOut := some ⟨f.train, f.serial, n, l.phase⟩ })
        (.mark f.train f.serial time ch.markIn.isSome))

/-- CLEAR_MARKS (R118): BAD_VALUE for a channel field that names none of A to F; otherwise, in every state, both marks
become absent, the reply carries whether each was held, and nothing else changes. -/
def Obligations.ClearMarks : Prop :=
  ∀ (tag b : Byte) (u s : State), u.takes (.clearMarks tag (.fields b)) s →
    (6 ≤ b.toNat → TurnedAway (.clearMarks tag (.fields b)) 0x42 tag u s .badValue) ∧
    ∀ c : ChannelId, b.toNat = c.val → ∃ t,
      Accepted (.clearMarks tag (.fields b)) 0x42 tag u t
        (.marksCleared (s.channel c).markIn.isSome (s.channel c).markOut.isSome) ∧
      t.channel c = { s.channel c with markIn := none, markOut := none } ∧
      (∀ d, d ≠ c → t.channel d = s.channel d) ∧ { t with channels := s.channels } = s ∧
      ((s.channel c).markIn = none → (s.channel c).markOut = none → t = s)

/-- TAKE (R120 to R128). The marks are ordered by instant, swapped when out of order by less than half a day; each
candidate train that holds both ends in order yields one angle, in candidate order; the clip takes the lowest free id
of the target bank, with the primary angle on the channel's train; the marks become absent and CLIP/COMMITTED is
raised. A refused TAKE changes nothing. That a substitute out mark takes its number under the timebase in force, and
that a number at or above D is ordered and looked up as it is, are log 18's, and that a phase at or above M goes to the
lookup unchanged is log 36's. -/
def Obligations.Take : Prop :=
  ∀ (tag b : Byte) (c : ChannelId) (u s : State), b.toNat = c.val → u.takes (.take tag (.fields b)) s →
    let ch := s.channel c
    let refused := fun st => TurnedAway (.take tag (.fields b)) 0x43 tag u s st
    (ch.markIn = none → refused .noMark) ∧
    (∀ m, ch.markIn = some m → ch.markOut = none → ch.lastPresent.bind (·.frame) = none → refused .noSource) ∧
    (∀ m p f, ch.markIn = some m → ch.markOut = none → ch.lastPresent = some p → p.frame = some f →
      f.timecode = none → refused .untimed) ∧
    ∀ mi mo, ch.markIn = some mi →
      (ch.markOut = some mo ∨ (ch.markOut = none ∧ ∃ p f l, ch.lastPresent = some p ∧ p.frame = some f ∧
        f.timecode = some l ∧ mo = ⟨f.train, f.serial, s.timebase.number l.label, l.phase⟩)) →
      let ticks := fun m : Mark => m.tcnum * 24 + m.phase * 24 / (s.train m.train).multiple
      let swapped := ticks mo < ticks mi ∧ ticks mi - ticks mo < 12 * s.timebase.day
      ∀ inEnd outEnd, (swapped → inEnd = mo ∧ outEnd = mi) → (¬swapped → inEnd = mi ∧ outEnd = mo) →
      let own := (s.sourceTrain ch.source).getD inEnd.train
      let trains := if ch.angleGroup = [] then [own] else ch.angleGroup
      let found := fun (x : TrainId) (e : Mark) (q serial : Nat) =>
        (e.train = x ∧ serial = e.serial ∧ (s.train x).retained serial = true) ∨
          (e.train ≠ x ∧ s.serialAt x e.tcnum q = some serial)
      let yields := fun (x : TrainId) (first last : Nat) =>
        let mx := (s.train x).multiple
        let min := (s.train inEnd.train).multiple
        let mout := (s.train outEnd.train).multiple
        found x inEnd (inEnd.phase * mx / min) first ∧
          found x outEnd (((outEnd.phase + 1) * mx + mout - 1) / mout - 1) last ∧ first ≤ last
      (1024 ≤ s.clips.length → refused .tableFull) ∧
      (s.clips.length < 1024 → (∀ id, id / 64 = ch.targetBank.val → (s.clipOf id).isSome = true) →
        refused .bankFull) ∧
      ∀ id, s.clips.length < 1024 → s.clipOf id = none → id / 64 = ch.targetBank.val →
        (∀ j, j / 64 = ch.targetBank.val → j < id → (s.clipOf j).isSome = true) →
        ((∀ x ∈ trains, ∀ first last, ¬yields x first last) → refused .notFound) ∧
        ((∃ x ∈ trains, ∃ first last, yields x first last) → ∃ t k,
          Accepted (.take tag (.fields b)) 0x43 tag u t
            (.take id k.primary (k.angles.map fun g => ⟨g.train, g.inSerial, g.outSerial, g.holed⟩)) ∧
          t.clipOf id = some k ∧ (∀ j, j ≠ id → t.clipOf j = s.clipOf j) ∧
          (k.angles.map (·.train)).Sublist trains ∧
          (∀ x ∈ trains, x ∈ k.angles.map (·.train) ↔ ∃ first last, yields x first last) ∧
          (∀ g ∈ k.angles, yields g.train g.inSerial g.outSerial ∧ g.present = true ∧ g.trimmed = false ∧
            (g.holed = true ↔ ∃ n, g.inSerial ≤ n ∧ n ≤ g.outSerial ∧ (s.train g.train).retained n = false)) ∧
          (own ∈ k.angles.map (·.train) → (k.angles[k.primary]?).map (·.train) = some own) ∧
          (own ∉ k.angles.map (·.train) → k.primary = 0) ∧
          k.state = (if k.angles.all (fun g => !g.holed) then .valid else .partialClip) ∧
          k.inTime = ⟨inEnd.tcnum, inEnd.phase⟩ ∧ k.outTime = ⟨outEnd.tcnum, outEnd.phase⟩ ∧
          k.lock = .unlocked ∧ k.name = none ∧ k.rating = 0 ∧ k.endAction = none ∧ k.speed = none ∧
          k.bounce = none ∧
          t.channel c = { ch with markIn := none, markOut := none } ∧ (∀ d, d ≠ c → t.channel d = s.channel d) ∧
          (∀ g, k.angles[k.primary]? = some g →
            t.reports = (s.raise (.committed c id k.angles.length g.train k.state)).reports) ∧
          { t with clips := s.clips, channels := s.channels, reports := s.reports } = s)

/-- The checks every clip command makes first (R133, R146, R147): a field outside its range is refused with BAD_VALUE,
before the clip is looked up; and an id no clip holds with NOT_FOUND. -/
def Obligations.ClipChecks : Prop :=
  (∀ (tag : Byte) (w : Half) (u s : State) (i : Instr) (kind v : Byte) (a b : Word) (nm : List Byte)
    (pe : Sys2Proof.Part EndAction) (pw : Sys2Proof.Part Word) (pb : Sys2Proof.Part BounceField), u.takes i s →
    (i, kind) ∈ [(Instr.lockClip tag (.fields w), (0x48 : Byte)), (.unlockClip tag (.fields w), 0x49),
      (.deleteClip tag (.fields w), 0x4B), (.queryClip tag (.fields w), 0x53)] ∨
      ((i, kind) = (.trimClip tag (.fields ⟨w, v, a, b⟩), 0x4A) ∧ v.toNat < 8) ∨
      ((i, kind) = (.rename tag (.fields ⟨w, nm⟩), 0x50) ∧ nm.length ≤ 16 ∧
        ∀ x ∈ nm, 32 ≤ x.toNat ∧ x.toNat ≤ 126) ∨
      ((i, kind) = (.rate tag (.fields ⟨w, v⟩), 0x51) ∧ v.toNat ≤ 3) ∨
      ((i, kind) = (.setClipPlay tag (.fields ⟨w, pe, pw, pb⟩), 0x52) ∧
        ∀ f, pb = .value f → 1 ≤ f.forwardSpeed.toInt ∧ f.forwardSpeed.toInt ≤ 38400 ∧
          1 ≤ f.reverseSpeed.toInt ∧ f.reverseSpeed.toInt ≤ 38400) →
    (1024 ≤ w.toNat → TurnedAway i kind tag u s .badValue) ∧
    (w.toNat < 1024 → s.clipOf w.toNat = none → TurnedAway i kind tag u s .notFound)) ∧
  (∀ (tag : Byte) (w : Half) (u s : State) (i : Instr) (kind v : Byte) (a b : Word) (nm : List Byte)
    (pe : Sys2Proof.Part EndAction) (pw : Sys2Proof.Part Word) (bf : BounceField), u.takes i s →
    ((i, kind) = (.trimClip tag (.fields ⟨w, v, a, b⟩), 0x4A) ∧ 8 ≤ v.toNat) ∨
      ((i, kind) = (.rename tag (.fields ⟨w, nm⟩), 0x50) ∧
        (16 < nm.length ∨ ∃ x ∈ nm, x.toNat < 32 ∨ 126 < x.toNat)) ∨
      ((i, kind) = (.rate tag (.fields ⟨w, v⟩), 0x51) ∧ 3 < v.toNat) ∨
      ((i, kind) = (.setClipPlay tag (.fields ⟨w, pe, pw, .value bf⟩), 0x52) ∧
        (bf.forwardSpeed.toInt < 1 ∨ 38400 < bf.forwardSpeed.toInt ∨ bf.reverseSpeed.toInt < 1 ∨
          38400 < bf.reverseSpeed.toInt)) →
    TurnedAway i kind tag u s .badValue) ∧
  ∀ (tag b v : Byte) (u s : State) (i : Instr) (kind : Byte), u.takes i s →
    ((i, kind) ∈ [(Instr.clearBank tag (.fields b), (0x4C : Byte)), (.guardBank tag (.fields b), 0x4E),
      (.unguardBank tag (.fields b), 0x4F)] ∧ 16 ≤ b.toNat) ∨
      ((i, kind) = (.listBank tag (.fields ⟨b, v⟩), 0x54) ∧ (16 ≤ b.toNat ∨ 63 < v.toNat)) →
    TurnedAway i kind tag u s .badValue

/-- LOCK_CLIP, UNLOCK_CLIP and TRIM_CLIP (R26, R137 to R140). Locking raises, and unlocking lowers, the lock count of
each chain extent once for each present angle that touches it; a trim sets the angle's range and flags and derives the
clip's state again, and on a HELD clip moves the counts from the old range to the new. A LOST clip is not locked; an
angle that is not present, a range out of order and an end that is not retained refuse a trim. That the reply to a
command that changes nothing counts 0 is log 13's. -/
def Obligations.LocksAndTrims : Prop :=
  ∀ (tag : Byte) (w : Half) (u s : State) (k : Clip), w.toNat < 1024 → s.clipOf w.toNat = some k → s.tableLaw →
    let touching := (k.angles.filter (·.present)).flatMap fun g => s.touched g.train g.inSerial g.outSerial
    let stored := fun k' => s.clips.map fun d => if d.id = k.id then k' else d
    (u.takes (.lockClip tag (.fields w)) s →
      (k.state = .lost → TurnedAway (.lockClip tag (.fields w)) 0x48 tag u s .notFound) ∧
      (k.state ≠ .lost → k.lock = .held → Accepted (.lockClip tag (.fields w)) 0x48 tag u s (.lockCounts 0)) ∧
      (k.state ≠ .lost → k.lock = .unlocked → ∃ t,
        Accepted (.lockClip tag (.fields w)) 0x48 tag u t (.lockCounts touching.length) ∧
        t.clips = stored { k with lock := .held } ∧ locksWf t.locks = true ∧
        (∀ e, lockCount t.locks e = lockCount s.locks e + touching.count e) ∧
        { t with clips := s.clips, locks := s.locks } = s)) ∧
    (u.takes (.unlockClip tag (.fields w)) s →
      (k.lock = .unlocked → Accepted (.unlockClip tag (.fields w)) 0x49 tag u s (.lockCounts 0)) ∧
      (k.lock = .held → ∃ t,
        Accepted (.unlockClip tag (.fields w)) 0x49 tag u t (.lockCounts touching.length) ∧
        t.clips = stored { k with lock := .unlocked } ∧ locksWf t.locks = true ∧
        (∀ e, lockCount t.locks e = lockCount s.locks e - touching.count e) ∧
        { t with clips := s.clips, locks := s.locks } = s)) ∧
    ∀ (i : Byte) (wa wb : Word), i.toNat < 8 → u.takes (.trimClip tag (.fields ⟨w, i, wa, wb⟩)) s →
      let a := wa.toNat
      let b := wb.toNat
      let refused := fun st => TurnedAway (.trimClip tag (.fields ⟨w, i, wa, wb⟩)) 0x4A tag u s st
      ((∀ g, k.angles[i.toNat]? = some g → g.present = false) → refused .notFound) ∧
      ∀ g, k.angles[i.toNat]? = some g → g.present = true →
        (b < a ∨ (s.train g.train).retained a = false ∨ (s.train g.train).retained b = false →
          refused .badRange) ∧
        (a ≤ b → (s.train g.train).retained a = true → (s.train g.train).retained b = true →
          let g' : Angle := { g with
            inSerial := a, outSerial := b, trimmed := false, holed := (s.train g.train).holed a b }
          let k' : Clip := { k with
            angles := k.angles.set i.toNat g', state := clipStateOf (k.angles.set i.toNat g') }
          let before := s.touched g.train g.inSerial g.outSerial
          let after := s.touched g.train a b
          ∃ t net, Accepted (.trimClip tag (.fields ⟨w, i, wa, wb⟩)) 0x4A tag u t
            (.trim a b g'.holed k'.state net) ∧
            t.clips = stored k' ∧ locksWf t.locks = true ∧
            (k.lock = .unlocked → t.locks = s.locks ∧ net = 0) ∧
            (k.lock = .held → net = (after.length : Int) - before.length ∧
              ∀ e, lockCount t.locks e = lockCount s.locks e - before.count e + after.count e) ∧
            { t with clips := s.clips, locks := s.locks } = s)

/-- DELETE_CLIP, CLEAR_BANK and CLEAR_ALL (R142 to R144, R173). A HELD clip and one in use are kept: LOCKED or IN_USE
for a deletion, counted for a clear; a guarded bank is refused with GUARDED or passed over. Every queue entry naming a
removed clip goes with it, and is logged SKIPPED_DELETED, clip by clip in ascending id order, and of each clip channel
by channel in queue order, with train 0 for an angle that is not in the table (log 21). A deletion and the clear of a
bank report CLIP/DELETED after the entries logged; a clear reports it for each bank from which a clip was removed,
CLEAR_ALL bank by bank. Channels, guards and the store stay. That the reply to DELETE_CLIP counts the queue entries
removed is log 13's. -/
def Obligations.ClipsRemoved : Prop :=
  ∀ (tag : Byte) (u s : State), s.tableLaw →
    let kept := fun d : Clip => decide (d.lock = .held) || !(s.users d.id).isEmpty
    let entriesOf := fun d : Clip => allChannels.flatMap fun c =>
      ((s.queue c).entries.filter fun e => e.clip == d.id).map fun e =>
        (⟨c, d.id, ((d.angles[e.angle.getD d.primary]?).map (·.train)).getD 0, .skippedDeleted, none, none, 0⟩
          : RunEntry)
    let logOf := fun gone : Clip → Bool => (s.clips.filter gone).flatMap entriesOf
    let reported := fun (t : State) (gone : Clip → Bool) (bodies : List ReportBody) =>
      s.runLog.entries.length ≤ 256 → s.raised t (appendReports s.runLog.entries.length (logOf gone) ++ bodies)
    let left := fun (t : State) (gone : Clip → Bool) (entries : Nat) =>
      (s.runLog.entries.length ≤ 256 → s.logged t (logOf gone)) ∧
      t.clips = s.clips.filter (fun d => !gone d) ∧
      (∀ c, t.queue c = { s.queue c with
        entries := (s.queue c).entries.filter fun e => !s.clips.any fun d => d.id == e.clip && gone d }) ∧
      entries + (allChannels.map fun c => (t.queue c).entries.length).sum =
        (allChannels.map fun c => (s.queue c).entries.length).sum ∧
      s.keepsStore t ∧ t.channels = s.channels ∧ t.panels = s.panels ∧ t.guards = s.guards ∧ s.keepsFaults t ∧
      s.keepsLinks t ∧ t.freeReads = s.freeReads
    (∀ (w : Half) (k : Clip), w.toNat < 1024 → s.clipOf w.toNat = some k → u.takes (.deleteClip tag (.fields w)) s →
      (k.lock = .held → TurnedAway (.deleteClip tag (.fields w)) 0x4B tag u s .locked) ∧
      (k.lock = .unlocked → (∃ c i, (s.channel c).source = .clip w.toNat i) →
        TurnedAway (.deleteClip tag (.fields w)) 0x4B tag u s .inUse) ∧
      (k.lock = .unlocked → (∀ c i, (s.channel c).source ≠ .clip w.toNat i) →
        ∃ t n, Accepted (.deleteClip tag (.fields w)) 0x4B tag u t (.deleted n) ∧
          left t (fun d => d.id == w.toNat) n ∧
          reported t (fun d => d.id == w.toNat) [.deleted w.toNat (w.toNat / 64) k.state n])) ∧
    (∀ (b : Byte) (bank : Fin 16), b.toNat = bank.val → u.takes (.clearBank tag (.fields b)) s →
      let ofBank := fun d : Clip => d.id / 64 == bank.val
      (s.guards[bank.val] = true → TurnedAway (.clearBank tag (.fields b)) 0x4C tag u s .guarded) ∧
      (s.guards[bank.val] = false → ∃ t n,
        Accepted (.clearBank tag (.fields b)) 0x4C tag u t
          (.bankCleared (s.clips.countP fun d => ofBank d && !kept d) (s.clips.countP fun d => ofBank d && kept d)
            n) ∧
        left t (fun d => ofBank d && !kept d) n ∧
        reported t (fun d => ofBank d && !kept d)
          (if s.clips.any (fun d => ofBank d && !kept d) then [.bankCleared bank.val
            (s.clips.countP fun d => ofBank d && !kept d) (s.clips.countP fun d => ofBank d && kept d)] else []))) ∧
    (u.takes (.clearAll tag (.fields ())) s →
      let spared := fun d : Clip => s.guards.toList.getD (d.id / 64) false || kept d
      ∃ t n, Accepted (.clearAll tag (.fields ())) 0x4D tag u t
        (.allCleared (s.clips.countP fun d => !spared d) (s.clips.countP spared) (s.guards.toList.count true) n) ∧
        left t (fun d => !spared d) n ∧
        (s.runLog.entries.length ≤ 256 → s.raised t ((List.range 16).flatMap fun bank =>
          let logged := (logOf fun d => decide (d.id / 64 < bank) && !spared d).length
          let ofBank := fun d : Clip => d.id / 64 == bank
          appendReports (min 256 (s.runLog.entries.length + logged)) (logOf fun d => ofBank d && !spared d) ++
            if s.clips.any (fun d => ofBank d && !spared d) then [.bankCleared bank
              (s.clips.countP fun d => ofBank d && !kept d) (s.clips.countP fun d => ofBank d && kept d)] else [])))

/-- GUARD_BANK and UNGUARD_BANK, RENAME, RATE and SET_CLIP_PLAY (R145 to R147): each sets its own field, of its own
bank or clip, and nothing else; the reply carries the guard before the command, or the play fields after it. QUERY_CLIP
and LIST_BANK (R148, R149): they change nothing. A clip is answered with its record, the labels of its times, the
channels that use it and each present angle's looked-up timecodes; a bank with its guard, its number of clips and up to
32 of them from the start index, in ascending id order. -/
def Obligations.ClipEditsAndQueries : Prop :=
  (∀ (tag : Byte) (u s : State),
    (∀ (b : Byte) (bank : Fin 16), b.toNat = bank.val →
      (u.takes (.guardBank tag (.fields b)) s → Accepted (.guardBank tag (.fields b)) 0x4E tag u
        { s with guards := s.guards.set bank.val true } (.guard s.guards[bank.val])) ∧
      (u.takes (.unguardBank tag (.fields b)) s → Accepted (.unguardBank tag (.fields b)) 0x4F tag u
        { s with guards := s.guards.set bank.val false } (.guard s.guards[bank.val]))) ∧
    ∀ (w : Half) (k : Clip), w.toNat < 1024 → s.clipOf w.toNat = some k →
      let stored := fun k' : Clip => ({ s with clips := s.clips.map fun d => if d.id = k.id then k' else d } : State)
      (∀ nm : List Byte, nm.length ≤ 16 → (∀ x ∈ nm, 32 ≤ x.toNat ∧ x.toNat ≤ 126) →
        u.takes (.rename tag (.fields ⟨w, nm⟩)) s → Accepted (.rename tag (.fields ⟨w, nm⟩)) 0x50 tag u
          (stored { k with name := if nm = [] then none else some nm }) .empty) ∧
      (∀ v : Byte, v.toNat ≤ 3 → u.takes (.rate tag (.fields ⟨w, v⟩)) s →
        Accepted (.rate tag (.fields ⟨w, v⟩)) 0x51 tag u (stored { k with rating := v.toNat }) .empty) ∧
      ∀ (pe : Sys2Proof.Part EndAction) (pw : Sys2Proof.Part Word) (pb : Sys2Proof.Part BounceField),
        (∀ v, pb = .value v → 1 ≤ v.forwardSpeed.toInt ∧ v.forwardSpeed.toInt ≤ 38400 ∧ 1 ≤ v.reverseSpeed.toInt ∧
          v.reverseSpeed.toInt ≤ 38400) →
        u.takes (.setClipPlay tag (.fields ⟨w, pe, pw, pb⟩)) s → ∃ e v f,
          Accepted (.setClipPlay tag (.fields ⟨w, pe, pw, pb⟩)) 0x52 tag u
            (stored { k with endAction := e, speed := v, bounce := f }) (.clipPlay e v f) ∧
          (pe = .keep → e = k.endAction) ∧ (pe = .clear → e = none) ∧ (∀ x, pe = .value x → e = some x) ∧
          (pw = .keep → v = k.speed) ∧ (pw = .clear → v = none) ∧
          (∀ x, pw = .value x → v = some (max (-38400) (min x.toInt 38400))) ∧
          (pb = .keep → f = k.bounce) ∧ (pb = .clear → f = none) ∧
          (∀ x, pb = .value x → f = some ⟨x.forwardSpeed.toInt, x.reverseSpeed.toInt, x.passes.toNat⟩)) ∧
  (∀ (tag : Byte) (u s : State),
    (∀ (w : Half) (k : Clip), w.toNat < 1024 → s.clipOf w.toNat = some k → u.takes (.queryClip tag (.fields w)) s →
      ∃ users views, Accepted (.queryClip tag (.fields w)) 0x53 tag u s
        (.clip k ⟨s.timebase.label (k.inTime.tcnum % s.timebase.day), k.inTime.phase⟩
          ⟨s.timebase.label (k.outTime.tcnum % s.timebase.day), k.outTime.phase⟩ users views) ∧
        (∀ c, c ∈ users ↔ ∃ i, (s.channel c).source = .clip w.toNat i) ∧ views.map (·.angle) = k.angles ∧
        ∀ v ∈ views, (v.angle.present = false → v.inTime = none ∧ v.outTime = none) ∧
          (v.angle.present = true → v.inTime = s.fieldAt v.angle.train v.angle.inSerial ∧
            v.outTime = s.fieldAt v.angle.train v.angle.outSerial)) ∧
    ∀ (b i : Byte) (bank : Fin 16), b.toNat = bank.val → i.toNat ≤ 63 →
      u.takes (.listBank tag (.fields ⟨b, i⟩)) s →
      let held := s.clips.filter fun k => k.id / 64 == bank.val
      Accepted (.listBank tag (.fields ⟨b, i⟩)) 0x54 tag u s
        (.bank s.guards[bank.val] held.length (((held.drop i.toNat).take 32).map fun k =>
          ⟨k.id, k.state, k.lock, k.rating, !(s.users k.id).isEmpty⟩)))


/-! ## Play queues and the run log -/

/-- QUEUE_ADD, QUEUE_REMOVE, QUEUE_CLEAR and QUERY_QUEUE (R164 to R168), for a channel field that names one of A to F
(one that names none is ChannelChecks). Each edits the one queue and nothing else; in queue play the entry being played
stays at the head (its removal is QueueLoads). -/
def Obligations.QueueEditing : Prop :=
  ∀ (tag b : Byte) (c : ChannelId) (u s : State), b.toNat = c.val →
    let q := s.queue c
    (∀ (w : Half) (angle position : Option Byte) (speed : Option Word),
      u.takes (.queueAdd tag (.fields ⟨b, w, angle, speed, position⟩)) s →
      let refused := fun st => TurnedAway (.queueAdd tag (.fields ⟨b, w, angle, speed, position⟩)) 0x58 tag u s st
      let bad := 1024 ≤ w.toNat ∨ (∃ i, angle = some i ∧ 8 ≤ i.toNat) ∨
        ∃ p, position = some p ∧ (32 ≤ p.toNat ∨ q.entries.length < p.toNat)
      let loads := ∃ k g, s.clipOf w.toNat = some k ∧ k.state ≠ .lost ∧
        k.angles[(angle.map (·.toNat)).getD k.primary]? = some g ∧ g.present = true
      (bad → refused .badValue) ∧
      (¬bad → 32 ≤ q.entries.length → refused .queueFull) ∧
      (¬bad → q.entries.length < 32 → ¬loads → refused .notFound) ∧
      (¬bad → q.entries.length < 32 → loads → ∃ i,
        (position = none → i = q.entries.length) ∧
        (∀ p, position = some p → i = if q.playing = true ∧ p.toNat = 0 then 1 else p.toNat) ∧
        let es := q.entries.insertIdx i
          (⟨w.toNat, angle.map (·.toNat), speed.map fun v => max (-38400) (min v.toInt 38400)⟩ : QueueEntry)
        Accepted (.queueAdd tag (.fields ⟨b, w, angle, speed, position⟩)) 0x58 tag u
          (s.setQueue c { q with entries := es }) (.queueAdded i es.length))) ∧
    (∀ i : Byte, u.takes (.queueRemove tag (.fields ⟨b, i⟩)) s →
      (32 ≤ i.toNat → TurnedAway (.queueRemove tag (.fields ⟨b, i⟩)) 0x59 tag u s .badValue) ∧
      (i.toNat ≤ 31 → q.entries.length ≤ i.toNat →
        TurnedAway (.queueRemove tag (.fields ⟨b, i⟩)) 0x59 tag u s .notFound) ∧
      (i.toNat ≤ 31 → i.toNat < q.entries.length → ¬(i.toNat = 0 ∧ q.playing = true) →
        Accepted (.queueRemove tag (.fields ⟨b, i⟩)) 0x59 tag u
          (s.setQueue c { q with entries := q.entries.take i.toNat ++ q.entries.drop (i.toNat + 1) })
          (.queueRemoved (q.entries.length - 1) none))) ∧
    (u.takes (.queueClear tag (.fields b)) s →
      (q.playing = false → Accepted (.queueClear tag (.fields b)) 0x5A tag u
        (s.setQueue c { q with entries := [] }) (.queueCleared q.entries.length)) ∧
      ∀ e rest, q.playing = true → q.entries = e :: rest → Accepted (.queueClear tag (.fields b)) 0x5A tag u
        (s.setQueue c { q with entries := [e] }) (.queueCleared rest.length)) ∧
    ∀ i : Byte, u.takes (.queryQueue tag (.fields ⟨b, i⟩)) s →
      (32 ≤ i.toNat → TurnedAway (.queryQueue tag (.fields ⟨b, i⟩)) 0x5B tag u s .badValue) ∧
      (i.toNat ≤ 31 → Accepted (.queryQueue tag (.fields ⟨b, i⟩)) 0x5B tag u s
        (.queue q.playing q.entries.length ((q.entries.drop i.toNat).take 16) q.session))

/-- QUEUE_START, QUEUE_NEXT and QUEUE_REMOVE of the entry being played (R164, R166, R169, R170, R73, R87, R175).
Entries that cannot be loaded are skipped and logged; the first that can is loaded, at its in serial in PLAYING with a
new session and bounce context, ramping from 0 after QUEUE_START and cut to at its speed in queue play; with none left
the channel keeps its clip, stopping in CUED when the entry being played is gone. The session cut short is logged, and
a skipped entry whose angle is not in the table is logged with train 0 (log 21). The reports are RUNLOG/APPENDED for
each entry logged, and then TRANSPORT/STATE_CHANGED, cause QUEUE, where the state or the source changed (R70, R175). -/
def Obligations.QueueLoads : Prop :=
  ∀ (tag b : Byte) (c : ChannelId) (u s : State), b.toNat = c.val → (s.channel c).state ≠ .following →
    s.runLog.entries.length ≤ 256 →
    let ch := s.channel c
    let q := s.queue c
    let ended := s.endedOn .cutShort [c]
    let told := fun (t : State) (log : List RunEntry) =>
      s.logged t log ∧
        s.raised t (appendReports s.runLog.entries.length log ++ s.changeReport c (t.channel c) .queue)
    let loaded := fun (t : State) (e : QueueEntry) (i : Nat) (g : Angle) (rest : List QueueEntry) (cut : Bool) =>
      let v := s.speedOf e
      t.channel c = { ch with
        state := .playing, source := .clip e.clip i, head := g.inSerial * 1200, speed := if cut then v else 0
        target := v, edgeHold := false, jogAcc := ch.jogLeft, bounce := some (s.contextOf e.clip v) } ∧
      t.queue c = ⟨e :: rest, true, some (freshSession e.clip g.train)⟩ ∧ s.channelFrame t c
    let stopped := fun t : State =>
      t.channel c = { ch with
        state := .cued, speed := 0, target := 0, bounce := none, jogAcc := ch.jogLeft
        edgeHold := if ch.state = .shuttle then false else ch.edgeHold } ∧
      t.queue c = ⟨[], false, none⟩ ∧ s.channelFrame t c
    (∀ i kind, u.takes i s →
      i = .queueStart tag (.fields b) ∧ kind = 0x5C ∨
        i = .queueNext tag (.fields b) ∧ kind = 0x5D ∧ q.playing = false →
      (q.entries = [] → TurnedAway i kind tag u s .notFound) ∧
      ∀ lost rest, q.entries ≠ [] → q.entries = lost ++ rest → (∀ e ∈ lost, ∀ n g, ¬s.loads e n g) →
        (∀ e more n g, rest = e :: more → s.loads e n g → ∃ t,
          Accepted i kind tag u t (.queueLoaded lost.length (some (e.clip, n)) (t.transport c)) ∧
          loaded t e n g more false ∧ told t (s.skippedOn c lost ++ ended)) ∧
        (rest = [] → q.playing = false → ∃ t,
          Accepted i kind tag u t (.queueLoaded lost.length none (t.transport c)) ∧ t.channel c = ch ∧
          t.queue c = { q with entries := [] } ∧ s.channelFrame t c ∧ told t (s.skippedOn c lost)) ∧
        (rest = [] → q.playing = true → ∃ t,
          Accepted i kind tag u t (.queueLoaded lost.length none (t.transport c)) ∧ stopped t ∧
          told t (s.skippedOn c lost ++ ended))) ∧
    ∀ i kind lost rest (answer : Option (Nat × Nat) → State → ReplyBody), u.takes i s → q.playing = true →
      q.entries.drop 1 = lost ++ rest → (∀ e ∈ lost, ∀ n g, ¬s.loads e n g) →
      i = .queueNext tag (.fields b) ∧ kind = 0x5D ∧
          (answer = fun l t => .queueLoaded lost.length l (t.transport c)) ∨
        i = .queueRemove tag (.fields ⟨b, 0⟩) ∧ kind = 0x59 ∧ q.entries ≠ [] ∧
          (answer = fun _ t => .queueRemoved (t.queue c).entries.length (some (t.transport c))) →
      (∀ e more n g, rest = e :: more → s.loads e n g → ∃ t,
        Accepted i kind tag u t (answer (some (e.clip, n)) t) ∧ loaded t e n g more true ∧
        told t (ended ++ s.skippedOn c lost)) ∧
      (rest = [] → ∃ t, Accepted i kind tag u t (answer none t) ∧ stopped t ∧ told t (ended ++ s.skippedOn c lost))

/-- READ_RUNLOG and FLUSH_RUNLOG (R176, R177). A read of a count from 1 to 8 returns and removes that many of the
oldest entries, with the number left and the overrun flag, which it does not change; another count is refused with
BAD_VALUE. A flush empties the log, clears the flag and answers with the number removed; no session record changes. -/
def Obligations.RunLogReadAndFlushed : Prop :=
  (∀ (tag b : Byte) (u s : State), u.takes (.readRunlog tag (.fields b)) s →
    (b.toNat < 1 ∨ 8 < b.toNat → TurnedAway (.readRunlog tag (.fields b)) 0x5E tag u s .badValue) ∧
    (1 ≤ b.toNat → b.toNat ≤ 8 → ∃ t returned left,
      s.runLog.entries = returned ++ left ∧ returned.length = min b.toNat s.runLog.entries.length ∧
      Accepted (.readRunlog tag (.fields b)) 0x5E tag u t (.runLog returned left.length s.runLog.overrun) ∧
      t = { s with runLog := { entries := left, overrun := s.runLog.overrun } })) ∧
  ∀ (tag : Byte) (u s : State), u.takes (.flushRunlog tag (.fields ())) s →
    Accepted (.flushRunlog tag (.fields ())) 0x5F tag u { s with runLog := { entries := [], overrun := false } }
      (.flushed s.runLog.entries.length)

/-! ## Reports, faults and the alarm line -/

/-- SET_REPORTS and the four parts of QUERY_STATUS (R27, R68, R114, R182, R184). SET_REPORTS sets each listed class and
leaves the others; a list that is empty, holds more than 6, names a class twice or carries a priority above 3 is
refused. The queries change nothing, but that the summary clears the lost flags it returns; TRAINS answers up to 4 and
CHANNELS up to 3 summaries from the start, which must lie in its range. -/
def Obligations.ReportSettingsAndStatus : Prop :=
  ∀ (tag : Byte) (u s : State),
    (∀ l : List ReportSettingField, u.takes (.setReports tag (.fields l)) s →
      let good := 1 ≤ l.length ∧ l.length ≤ 6 ∧ (l.map (·.cls)).Nodup ∧ ∀ r ∈ l, r.priority.toNat ≤ 3
      (¬good → TurnedAway (.setReports tag (.fields l)) 0x60 tag u s .badValue) ∧
      (good → ∃ v, Accepted (.setReports tag (.fields l)) 0x60 tag u
          { s with reports := { s.reports with settings := v } } (.reportSettings v) ∧
        (∀ r ∈ l, v[(classIndex r.cls).val] = ⟨r.enabled, r.priority.toNat⟩) ∧
        ∀ k, (∀ r ∈ l, r.cls ≠ k) → v[(classIndex k).val] = s.reports.settings[(classIndex k).val])) ∧
    (u.takes (.queryStatusSummary tag (.fields ())) s →
      Accepted (.queryStatusSummary tag (.fields ())) 0x61 tag u
        { s with reports := { s.reports with lost := Vector.replicate 6 false } }
        (.summary s.reports.lost s.runLog.entries.length s.runLog.overrun s.reports.queue.length s.faults.count
          (s.faults.latest.map (·.kind)) (decide (s.alarm.line ≠ .deasserted)) (decide (s.alarm.line = .clearing))
          (s.trains.toList.map (·.state)) (s.channels.toList.map fun ch => (ch.state, ch.role))
          (s.panels.toList.map fun p => (p.binding, p.arm)))) ∧
    (∀ b : Byte, u.takes (.queryStatusTrains tag (.fields b)) s →
      (16 ≤ b.toNat → TurnedAway (.queryStatusTrains tag (.fields b)) 0x61 tag u s .badValue) ∧
      (b.toNat < 16 → Accepted (.queryStatusTrains tag (.fields b)) 0x61 tag u s
        (.trains (((s.trains.toList.drop b.toNat).take 4).map fun r =>
          ⟨r.state, r.multiple, r.pool, r.chain.length, r.current.map fun e => (e.extent, e.fill), r.reserved,
            r.oldestEdge, r.recordEdge, r.serialCounter, holesIn r.chain⟩)))) ∧
    (∀ b : Byte, u.takes (.queryStatusChannels tag (.fields b)) s →
      (6 ≤ b.toNat → TurnedAway (.queryStatusChannels tag (.fields b)) 0x61 tag u s .badValue) ∧
      (b.toNat < 6 → Accepted (.queryStatusChannels tag (.fields b)) 0x61 tag u s
        (.channels (((s.channels.toList.drop b.toNat).take 3).map fun ch =>
          ⟨ch.state, ⟨ch.source, s.sourceTrain ch.source⟩,
            if ch.state = .idle then none else some (ch.head / 1200, ch.head % 1200), ch.speed, ch.target, ch.accel,
            ch.blend, ch.endAction, ch.liveDelay, ch.role, ch.markIn.isSome, ch.markOut.isSome, ch.lastServed,
            ch.lastPresent.map fun p => match p.frame with
              | some f => ⟨false, some f.serial, f.weight⟩
              | none => ⟨true, none, 0⟩⟩)))) ∧
    (u.takes (.queryStatusPanels tag (.fields ())) s →
      Accepted (.queryStatusPanels tag (.fields ())) 0x61 tag u s
        (.panels (s.panels.toList.map fun p =>
          ⟨p.binding, p.arm, p.silence, elapsed s.time p.lastRecord, p.curve.length, p.pendingEcho.isSome⟩)))

/-- READ_FAULTS, CLEAR_FAULTS, SET_ALARM and HOLD_END (R186 to R188). A clear empties the record and releases the line,
at once or at the hold end when the hold runs; a longer hold lengthens the one running, a shorter one does not change
it. That a hold runs while its end is later than the clock, and that HOLD_END acts only when one has run out, is the
model's reading (log 7, log 31). -/
def Obligations.FaultsAndAlarm : Prop :=
  ∀ (tag : Byte) (s : State),
    let a := s.alarm
    let running := fun h : Hold => laterTime h.finish s.time = true
    (∀ u, u.takes (.readFaults tag (.fields ())) s → ∃ remaining,
      Accepted (.readFaults tag (.fields ())) 0x62 tag u s (.faults s.faults a.mask a.holdTime
        (decide (a.line ≠ .deasserted)) (decide (a.line = .clearing)) remaining) ∧
      (∀ h, a.hold = some h → running h → remaining = some (elapsed h.finish s.time)) ∧
      ((∀ h, a.hold = some h → ¬running h) → remaining = none)) ∧
    (∀ u, u.takes (.clearFaults tag (.fields ())) s → ∃ t,
      Accepted (.clearFaults tag (.fields ())) 0x63 tag u t (.faultsCleared s.faults.count) ∧
      t.faults = ⟨none, none, 0⟩ ∧
      (a.line ≠ .asserted → t.alarm = a) ∧
      (∀ h, a.line = .asserted → a.hold = some h → running h → t.alarm = { a with line := .clearing }) ∧
      (a.line = .asserted → (∀ h, a.hold = some h → ¬running h) →
        t.alarm = { a with line := .deasserted, hold := none }) ∧
      { t with faults := s.faults, alarm := s.alarm } = s) ∧
    (∀ (u : State) (mask : Byte) (w : Word), u.takes (.setAlarm tag (.fields ⟨mask, w⟩)) s →
      (64 ≤ mask.toNat ∨ w.toNat < 100 ∨ 5000 < w.toNat →
        TurnedAway (.setAlarm tag (.fields ⟨mask, w⟩)) 0x64 tag u s .badValue) ∧
      (mask.toNat < 64 → 100 ≤ w.toNat → w.toNat ≤ 5000 → ∃ hold,
        Accepted (.setAlarm tag (.fields ⟨mask, w⟩)) 0x64 tag u
          { s with alarm := { a with mask := mask, holdTime := w.toNat, hold := hold } } (.alarm a.mask a.holdTime) ∧
        ((∀ h, a.hold = some h → ¬running h) → hold = a.hold) ∧
        ∀ h, a.hold = some h → running h →
          let fresh := (h.start + w.toNat) % 4294967296
          hold = some ⟨h.start, if laterTime fresh h.finish = true then fresh else h.finish⟩)) ∧
    (s.resetAsserted = false →
      (∀ h, a.hold = some h → ¬running h → Leaves .holdEnd s { s with alarm := { a with
        hold := none, line := if a.line = .clearing then .deasserted else a.line } }) ∧
      ((∀ h, a.hold = some h → running h) → Leaves .holdEnd s s))

/-! ## The playback head -/

/-- Serving a FRAME_REQUEST (R49 to R54, R57, R60 to R66, R79, R83, R112, R174), whatever the advance count: a first
request and one up to 8 ahead step as many times, a repeat not at all, and one further ahead once, with fault
PLAYOUT_GAP (R50). A request that names no channel is not answered; an IDLE channel answers BLACK; a repeat settles the
head (R60, log 19) and shows it without stepping it. In CUED, PLAYING and SHUTTLE each sub-step that stays inside the
bounds and on retained frames ramps the speed toward the target and moves the head by speed times multiple, a moving
head short of the bound it runs to, and clears the edge-hold flag of SHUTTLE; from a displaced head the sub-steps ramp
the speed alone, and settling brings the head back (log 38). The present is answered, kept, counted to the open session
and echoed. -/
def Obligations.FrameRequestServed : Prop :=
  (∀ (tag b : Byte) (n : Word) (s : State), 6 ≤ b.toNat → s.resetAsserted = false →
    Leaves (.frameRequest tag b n) s s) ∧
  ∀ (tag b : Byte) (n : Word) (c : ChannelId) (k : Nat) (s s1 : State), b.toNat = c.val → s.resetAsserted = false →
    s.advances c n.toNat k s1 →
    let ch := s.channel c
    let count := n.toNat
    let leaves := Leaves (.frameRequest tag b n) s
    (ch.state = .idle → (s.queue c).session = none →
      let p : Present := ⟨c, count, none, .idle, 0⟩
      ∃ t, leaves t ∧ s.serves t c tag p id ∧
        t.channel c = { ch with lastServed := some count, lastPresent := some p } ∧ t.queue c = s.queue c ∧
        t.runLog = s.runLog ∧ s1.keepsFaults t ∧ t.reports = s1.reports) ∧
    ∀ x lo hi, s.sourceTrain ch.source = some x → s.bounds ch.source = some (lo, hi) → lo ≤ hi →
      (∀ h hop, k = 0 → ch.state ∈ [.cued, .playing, .shuttle, .jog, .live] →
        (s.train x).settles lo hi ch.head ch.speed h hop → (s.train x).retained (h / 1200) = true →
        ∃ t f, leaves t ∧ s.shows c x hi h f ∧
          let p : Present := ⟨c, count, some f, ch.state, if ch.state = .live then 1200 else ch.speed⟩
          s.serves t c tag p id ∧ t.channel c = { ch with head := h, lastPresent := some p } ∧
          t.queue c = s.queue c ∧ t.runLog = s.runLog ∧ s1.keepsFaults t ∧ s1.raised t (holeReports c x hop)) ∧
      ∀ (v : Nat → Int), 1 ≤ k → ch.state ∈ [.cued, .playing, .shuttle] →
        (ch.state = .shuttle → ∀ q, (s.panel q).binding = some c → (s.panel q).arm ≠ .lost) → s.roomLeft c →
        v 0 = ch.speed → (∀ j, j < k → v (j + 1) = ch.rampedFrom (v j)) →
        let stepped := fun (h : Nat) (hop : Option (Nat × Nat)) =>
          ∃ t f, leaves t ∧ s.shows c x hi h f ∧
            let p : Present := ⟨c, count, some f, ch.state, v k⟩
            s.serves t c tag p id ∧
            t.channel c = { ch with
              head := h, speed := v k, edgeHold := if ch.state = .shuttle then false else ch.edgeHold
              lastServed := some count, lastPresent := some p } ∧
            t.queue c = s.countedQueue c count ∧ t.runLog = s.runLog ∧ s1.keepsFaults t ∧
            s1.raised t (holeReports c x hop)
        (∀ h hop, s.leftOff c x lo hi → (s.train x).settles lo hi ch.head (v k) h hop →
          (s.train x).retained (h / 1200) = true → stepped h hop) ∧
        ∀ h : Nat → Nat, ¬s.leftOff c x lo hi → h 0 = ch.head →
          (∀ j, j < k → (h (j + 1) : Int) = h j + v (j + 1) * (s.train x).multiple ∧
            lo * 1200 ≤ h (j + 1) ∧ h (j + 1) ≤ hi * 1200 ∧ (0 < v (j + 1) → h (j + 1) < hi * 1200) ∧
            (v (j + 1) < 0 → lo * 1200 < h (j + 1)) ∧ (s.train x).retained (h (j + 1) / 1200) = true) →
          stepped (h k) none

/-- A request of any advance count runs its sub-steps in turn (R50, R51, R58, R60, R63, R65, R112, R174). In CUED,
PLAYING, SHUTTLE and JOG, a request that advances by k runs k sub-steps one after the other, the first one marked, each
on the state the one before has left, and none once the channel has left those states; `Obligations.JogsAndHoles`,
`Obligations.BoundsReached` and `Obligations.HoldsBouncesAdvances` say what each of them does. Then the head is settled
(R60, log 19), from D_live behind the record edge when a catch-up has left the channel in LIVE, and the present of the
state reached is answered, kept, counted to the open session and echoed. -/
def Obligations.SubStepsInTurn : Prop :=
  ∀ (tag b : Byte) (n : Word) (c : ChannelId) (k : Nat) (s s1 : State) (u : Nat → State), b.toNat = c.val →
    s.resetAsserted = false → s.advances c n.toNat k s1 → 1 ≤ k →
    let steps : List TransportState := [.cued, .playing, .shuttle, .jog]
    let count := n.toNat
    (s.channel c).state ∈ steps → u 0 = s1.setChannel c { s1.channel c with lastServed := some count } →
    (∀ j, j < k → u (j + 1) =
      if ((u j).channel c).state ∈ steps then (u j).subStep c count (decide (j = 0)) else u j) →
    let e := u k
    let ch := e.channel c
    ∀ x lo hi h hop, e.sourceTrain ch.source = some x → e.bounds ch.source = some (lo, hi) → lo ≤ hi → e.roomLeft c →
      (ch.state = .live → ch.source = .train x) →
      let start :=
        if ch.state = .live then (if hi < lo + ch.liveDelay then lo else hi - ch.liveDelay) * 1200 else ch.head
      (e.train x).settles lo hi start ch.speed h hop → (e.train x).retained (h / 1200) = true →
      ∃ t f, Leaves (.frameRequest tag b n) s t ∧ e.shows c x hi h f ∧
        let p : Present := ⟨c, count, some f, ch.state, if ch.state = .live then 1200 else ch.speed⟩
        e.serves t c tag p id ∧ t.channel c = { ch with head := h, lastPresent := some p } ∧
        t.queue c = e.countedQueue c count ∧ t.runLog = e.runLog ∧ e.keepsFaults t ∧
        e.raised t (holeReports c x hop)

/-- The heads that a FRAME_REQUEST places (R50, R58 to R60, R63, R159, R160). An advancing request in LIVE puts the
head the live delay behind the record edge, or at the oldest edge when that lies higher, and settles it; the present
carries 1200. One in FOLLOWING puts it where the leader's head maps on the follower's train, TRACKING, at the leader's
speed, or leaves it, HOLDING, at 0, when the leader is IDLE or the mapping fails, with EDGE/FOLLOW_LOST when it was
TRACKING; then settles it. A repeat in FOLLOWING settles the head and leaves the follow state. That a leader's head
just pushed, or in a hole of the follower's own train, maps as R41 has it is log 39's. -/
def Obligations.HeadsPlaced : Prop :=
  ∀ (tag b : Byte) (n : Word) (c : ChannelId) (k : Nat) (s s1 : State) (x : TrainId) (lo hi : Nat), b.toNat = c.val →
    s.resetAsserted = false → s.advances c n.toNat k s1 → (s.channel c).source = .train x →
    s.bounds (.train x) = some (lo, hi) → lo ≤ hi → s.roomLeft c →
    let ch := s.channel c
    let count := n.toNat
    let answered := fun (start h : Nat) (hop : Option (Nat × Nat)) (role : GangRole) (speed : Int)
        (before : List ReportBody) =>
      (s.train x).settles lo hi start ch.speed h hop → (s.train x).retained (h / 1200) = true →
      ∃ t f, Leaves (.frameRequest tag b n) s t ∧ s.shows c x hi h f ∧
        let p : Present := ⟨c, count, some f, ch.state, speed⟩
        s.serves t c tag p id ∧
        t.channel c = { ch with head := h, role := role, lastServed := some count, lastPresent := some p } ∧
        t.queue c = (if k = 0 then s.queue c else s.countedQueue c count) ∧ t.runLog = s.runLog ∧
        s1.keepsFaults t ∧ s1.raised t (before ++ holeReports c x hop)
    (∀ h hop, ch.state = .live → 1 ≤ k →
      answered ((if hi < lo + ch.liveDelay then lo else hi - ch.liveDelay) * 1200) h hop ch.role 1200 []) ∧
    ∀ l w h hop, ch.state = .following → ch.role = .follower w → followerOf l = some c →
      let leader := s.channel l
      let pace := if leader.state = .live then 1200 else leader.speed
      (k = 0 → answered ch.head h hop ch.role (if w = .tracking then pace else 0) []) ∧
      (∀ y placed, 1 ≤ k → leader.state ≠ .idle → s.sourceTrain leader.source = some y →
        s.mapHead y x leader.head = .found placed → answered placed h hop (.follower .tracking) pace []) ∧
      ∀ reason, 1 ≤ k →
        (leader.state = .idle ∧ reason = .leaderIdle) ∨
          (leader.state ≠ .idle ∧ ∃ y, s.sourceTrain leader.source = some y ∧
            ((s.mapHead y x leader.head = .untimed ∧ reason = .untimed) ∨
              (s.mapHead y x leader.head = .notFound ∧ reason = .notFound))) →
        answered ch.head h hop (.follower .holding) 0
          (if w = .tracking then [.followLost c l x (ch.head / 1200) reason] else [])

/-- Heads that a sub-step moves (R46, R48, R51 to R57, R66, R79, R83, R104, R140, R151, Table 3-2), in any sub-step of
a request. The first in JOG moves the head by the jog counts to a whole frame, clamped to the bounds, and empties them;
out of a hole it snaps in the direction of the jog. Any other sub-step ramps C, steps the head by C × M and resolves it
against bounds and holes, with EDGE/HOLE_SKIPPED for a snap; in CUED and JOG a bound hands on nothing. A head left in a
hole, or beyond a bound of its clip, by what came between two requests is not stepped and reaches nothing (that this
outranks R51 and R54 to R56 is log 38's). In SHUTTLE a sub-step that reaches no bound clears the edge-hold flag. -/
def Obligations.JogsAndHoles : Prop :=
  ∀ (c : ChannelId) (n : Nat) (first : Bool) (s : State) (x : TrainId) (lo hi : Nat),
    s.sourceTrain (s.channel c).source = some x → s.bounds (s.channel c).source = some (lo, hi) → lo ≤ hi →
    s.runLog.entries.length ≤ 256 →
    let ch := s.channel c
    let r := s.train x
    let v := ch.rampedFrom ch.speed
    let left := fun (new : Channel) (bodies : List ReportBody) =>
      s.subStepped (s.subStep c n first) c new (s.queue c) [] id bodies
    (∀ h dest hop, first = true → ch.state = .jog → ch.speed = 0 → ch.target = 0 →
      let landed := clampedHead lo hi ((((ch.head / 1200 : Nat) : Int) + ch.jogAcc) * 1200)
      r.lands landed h dest hop → (0 ≤ ch.jogAcc → r.snapsForward hi (landed / 1200) dest) →
      (ch.jogAcc < 0 → r.snapsBackward lo (landed / 1200) dest) →
      left { ch with head := h, jogAcc := 0 } (holeReports c x hop)) ∧
    (ch.state ∈ [.cued, .playing, .shuttle, .jog] → (first = true → ch.state ≠ .jog) →
      (ch.state = .shuttle → v = 0 → ∀ q, (s.panel q).binding = some c → (s.panel q).arm ≠ .lost) →
      let new : Channel := { ch with
        speed := v, edgeHold := if ch.state = .shuttle then false else ch.edgeHold }
      (s.leftOff c x lo hi → left new []) ∧
      ∀ h hop reached, ¬s.leftOff c x lo hi → s.moves c x lo hi h hop reached →
        (ch.state = .playing ∨ ch.state = .shuttle → reached = none) →
        left { new with head := h } (holeReports c x hop))

/-- A bound reached by a sub-step, any of a request, by its step or by a snap that ends there (R51, R55, R56, R81, R82,
R84 to R86, R110, R174, log 20), from a head that is not displaced (log 38). In PLAYING on a clip, the session's report
before the change's (log 14): outside queue play, STOP at the out point leaves the channel CUED there, its session
logged COMPLETE with this request counted, and LOOP moves the head to the in point; at the low bound in reverse the
channel goes CUED, its session open and queue play going on, in queue play whatever the end action, and outside it
whatever but BOUNCE (R172). On a train: at the record edge at 1200 or more, in PLAYING or SHUTTLE, it catches up to
LIVE with no delay and disarms its panel; below 1200, in PLAYING, it is clamped there and keeps its speed; and in
PLAYING at the oldest edge in reverse it goes CUED. -/
def Obligations.BoundsReached : Prop :=
  ∀ (c : ChannelId) (n : Nat) (first : Bool) (s : State) (x : TrainId) (lo hi h : Nat) (hop : Option (Nat × Nat))
    (d : Direction), s.sourceTrain (s.channel c).source = some x →
    s.bounds (s.channel c).source = some (lo, hi) → lo ≤ hi → (s.train x).retained lo = true →
    (s.train x).retained hi = true →
    s.roomLeft c → s.runLog.entries.length ≤ 256 → ¬s.leftOff c x lo hi → s.moves c x lo hi h hop (some d) →
    let ch := s.channel c
    let q := s.queue c
    let v := ch.rampedFrom ch.speed
    let up := d = .forward
    let down := d = .reverse
    let skipped := holeReports c x hop
    let changed := fun (st : TransportState) (serial : Nat) (cause : Cause) =>
      ReportBody.stateChanged c ch.state st ⟨ch.source, some x⟩ serial cause
    let left := fun (new : Channel) (queue : PlayQueue) (log : List RunEntry) (arm : ArmState → ArmState)
        (bodies : List ReportBody) => s.subStepped (s.subStep c n first) c new queue log arm (skipped ++ bodies)
    (∀ id i, ch.state = .playing → ch.source = .clip id i →
      let action := ((s.clipOf id).bind (·.endAction)).getD ch.endAction
      (up → q.playing = false → action = .stop →
        left { ch with state := .cued, head := hi * 1200, speed := 0, target := 0, bounce := none }
          { q with session := none } (s.completedBy c n) (fun a => a)
          (appendReports s.runLog.entries.length (s.completedBy c n) ++ [changed .cued hi .endAction])) ∧
      (up → q.playing = false → action = .loop →
        left { ch with head := lo * 1200, speed := v } q [] (fun a => a) []) ∧
      (down → q.playing = true ∨ action ≠ .bounce →
        left { ch with state := .cued, head := lo * 1200, speed := 0, target := 0, bounce := none } q [] (fun a => a)
          [changed .cued lo .bound])) ∧
    (ch.source = .train x →
      (up → 1200 ≤ v → ch.state = .playing ∨ ch.state = .shuttle →
        left { ch with
            state := .live, head := hi * 1200, speed := 1200, target := 1200, liveDelay := 0, bounce := none
            edgeHold := false }
          q [] (fun _ => .disarmed) [.caughtUp c x hi, changed .live hi .catchUp]) ∧
      (up → v < 1200 → ch.state = .playing →
        left { ch with head := hi * 1200, speed := v } q [] (fun a => a) []) ∧
      (down → ch.state = .playing →
        left { ch with state := .cued, head := lo * 1200, speed := 0, target := 0, bounce := none } q [] (fun a => a)
          [changed .cued lo .bound]))

/-- More of what a bound does to a sub-step, any of a request, that reaches it by its step or by a snap that ends there
(R51, R55, R56, R83, R84, R87 to R90, R171, R174, log 20), from a head that is not displaced (log 38), and the end of a
dead-man ramp-down (R109, R111), the session's reports before the change's (log 14). In SHUTTLE an edge hold leaves the
head at the bound with C 0 and T kept, and raises EDGE_HOLD when the flag was clear. In PLAYING on a clip, BOUNCE sets
C and T to −Vr at the out point and +Vf at the in point, a finite count of passes falling by 1, and with none left
stops there, the session COMPLETE. NEXT, or any end action in queue play, logs the session COMPLETE at the out point
and cuts to the first entry that can be loaded, or stops when there is none; entries that cannot are logged. In SHUTTLE
under a LOST panel the sub-step whose ramp brings C to 0 leaves the channel CUED and the panel DISARMED. -/
def Obligations.HoldsBouncesAdvances : Prop :=
  ∀ (c : ChannelId) (n : Nat) (first : Bool) (s : State) (x : TrainId) (lo hi : Nat),
    s.sourceTrain (s.channel c).source = some x → s.bounds (s.channel c).source = some (lo, hi) → lo ≤ hi →
    (s.train x).retained lo = true → (s.train x).retained hi = true → s.roomLeft c →
    s.runLog.entries.length ≤ 256 →
    let ch := s.channel c
    let q := s.queue c
    let v := ch.rampedFrom ch.speed
    let left := fun (new : Channel) (queue : PlayQueue) (log : List RunEntry) (arm : ArmState → ArmState)
        (bodies : List ReportBody) => s.subStepped (s.subStep c n first) c new queue log arm bodies
    let changed := fun (st : TransportState) (serial : Nat) (cause : Cause) =>
      ReportBody.stateChanged c ch.state st ⟨ch.source, some x⟩ serial cause
    (∀ h hop d, ¬s.leftOff c x lo hi → s.moves c x lo hi h hop (some d) →
      let up := d = .forward
      let down := d = .reverse
      let skipped := holeReports c x hop
      let held := fun (atHi : Bool) (bound : Nat) =>
        left { ch with head := bound * 1200, speed := 0, edgeHold := true } q [] (fun a => a)
          (skipped ++ if ch.edgeHold then [] else [.edgeHold c atHi bound])
      let stopped := fun (bound : Nat) (queue : PlayQueue) (log : List RunEntry) =>
        left { ch with state := .cued, head := bound * 1200, speed := 0, target := 0, bounce := none } queue log
          (fun a => a)
          (skipped ++ appendReports s.runLog.entries.length log ++ [changed .cued bound .endAction])
      (ch.state = .shuttle →
        (up → (∃ id i, ch.source = .clip id i) ∨ v < 1200 → held true hi) ∧ (down → held false lo)) ∧
      ∀ id i, ch.state = .playing → ch.source = .clip id i →
        let action := ((s.clipOf id).bind (·.endAction)).getD ch.endAction
        let set := (s.clipOf id).bind (·.bounce)
        let turned := fun (bound : Nat) (w : Int) (leg : Direction) (passes : Option Nat) =>
          left { ch with
              head := bound * 1200, speed := w, target := w
              bounce := some { direction := leg, passes := passes.map (· - 1) } }
            q [] (fun a => a) skipped
        (∀ context, q.playing = false → action = .bounce → ch.bounce = some context →
          (up → context.passes ≠ some 0 →
            turned hi (-((set.map (·.reverseSpeed)).getD 1200)) .reverse context.passes) ∧
          (down → context.passes ≠ some 0 →
            turned lo ((set.map (·.forwardSpeed)).getD 1200) .forward context.passes) ∧
          (up → context.passes = some 0 → stopped hi { q with session := none } (s.completedBy c n)) ∧
          (down → context.passes = some 0 → stopped lo { q with session := none } (s.completedBy c n))) ∧
        ∀ lost rest, up → q.playing = true ∨ action = .next →
          (if q.playing = true then q.entries.drop 1 else q.entries) = lost ++ rest →
          (∀ e ∈ lost, ∀ m g, ¬s.loads e m g) →
          let log := s.completedBy c n ++ s.skippedOn c lost
          (rest = [] → stopped hi ⟨[], false, none⟩ log) ∧
          ∀ e more m g, rest = e :: more → s.loads e m g →
            let w := s.speedOf e
            left { ch with
                source := .clip e.clip m, head := g.inSerial * 1200, speed := w, target := w, edgeHold := false
                bounce := some (s.contextOf e.clip w) }
              ⟨rest, true, some (freshSession e.clip g.train)⟩ log (fun a => a)
              (skipped ++ appendReports s.runLog.entries.length log ++
                (if ch.source = .clip e.clip m then [] else
                  [.stateChanged c .playing .playing ⟨.clip e.clip m, some g.train⟩ g.inSerial .queue]))) ∧
    ∀ p, ch.state = .shuttle → s.tableLaw → (s.panel p).binding = some c → (s.panel p).arm = .lost → v = 0 →
      let rested := fun (head : Nat) (bodies : List ReportBody) =>
        left { ch with state := .cued, head := head, speed := 0, target := 0, edgeHold := false } q []
          (fun _ => .disarmed) (changed .cued (ch.head / 1200) .deadMan :: bodies)
      (s.leftOff c x lo hi → rested ch.head []) ∧
      ∀ h hop, ¬s.leftOff c x lo hi → s.moves c x lo hi h hop none → rested h (holeReports c x hop)

/-! ## Link framing -/

/-- RECEIVED_BYTE, FRAMING_DISCARD and RECEIVER_TIMEOUT (R191). Outside a record a byte that is no start character is
passed and a start character begins an attempt; a byte that leaves the attempt collecting is held. A length outside 2
to 252, a CRC that differs, and 1 ms without a byte end an attempt: the bytes after its start character are examined
again, as Examined has it, which finds what any run of bytes comes to: the search goes on past every attempt that fails
again and after every whole record, each record is taken in turn, and the attempt left at the end is held. A last byte
whose CRC matches completes the record, which is taken. FRAMING_DISCARD is the byte that makes the attempt fail and
otherwise has no effect (log 5): in HUNT, in a header or a body still collecting, and with a CRC that matches. An
attempt times out after 1 ms without a byte, and not before (log 6, log 7). -/
def Obligations.ReceiverBytes : Prop :=
  (∀ bs : List Byte, ∃ records st held, Examined bs records st held) ∧
  ∀ (l : Link) (b : Byte) (s : State), s.resetAsserted = false →
    let r := s.receiver l
    let left := fun (st : ReceiverState) (held : List Byte) (time : Nat) => s.setReceiver l ⟨st, held, time⟩
    let again := fun (i : Instr) (bs : List Byte) (time : Nat) =>
      ∀ records st held, Examined bs records st held →
        Leaves i s (records.foldl (State.takeRecord l) (left st held time))
    (r.held = [] → b ≠ 0xC5 → Leaves (.receivedByte l b) s (left .hunt [] s.time)) ∧
    (r.held = [] → b = 0xC5 → Leaves (.receivedByte l b) s (left .header [0xC5] s.time)) ∧
    (r.held = [0xC5] → Leaves (.receivedByte l b) s (left .header [0xC5, b] s.time)) ∧
    (r.held = [] ∨ r.held = [0xC5] → Leaves (.framingDiscard l b) s s) ∧
    (∀ l1, r.held = [0xC5, l1] →
      let n := l1.toNat * 256 + b.toNat
      (2 ≤ n → n ≤ 252 → Leaves (.receivedByte l b) s (left .collect [0xC5, l1, b] s.time) ∧
        Leaves (.framingDiscard l b) s s) ∧
      (n < 2 ∨ 252 < n → again (.receivedByte l b) [l1, b] s.time ∧ again (.framingDiscard l b) [l1, b] s.time)) ∧
    (∀ l1 l2 bs, r.held = 0xC5 :: l1 :: l2 :: bs → 2 ≤ l1.toNat * 256 + l2.toNat →
      l1.toNat * 256 + l2.toNat ≤ 252 →
      (bs.length < l1.toNat * 256 + l2.toNat + 1 →
        Leaves (.receivedByte l b) s (left .collect (r.held ++ [b]) s.time) ∧ Leaves (.framingDiscard l b) s s) ∧
      ∀ content first, bs = content ++ [first] → content.length = l1.toNat * 256 + l2.toNat →
        (crc16 (l1 :: l2 :: content) = first ++ b → Leaves (.framingDiscard l b) s s ∧
          ∀ kind tag body, content = kind :: tag :: body →
            Leaves (.receivedByte l b) s (State.takeRecord l (left .hunt [] s.time) ⟨kind, tag, body⟩)) ∧
        (crc16 (l1 :: l2 :: content) ≠ first ++ b → again (.receivedByte l b) (l1 :: l2 :: bs ++ [b]) s.time ∧
          again (.framingDiscard l b) (l1 :: l2 :: bs ++ [b]) s.time)) ∧
    (r.state = .hunt ∨ elapsed s.time r.lastByte = 0 → Leaves (.receiverTimeout l) s s) ∧
    ∀ bs, r.state ≠ .hunt → 1 ≤ elapsed s.time r.lastByte → r.held = 0xC5 :: bs →
      again (.receiverTimeout l) bs r.lastByte

/-- A record framed by Table 11-1 and received byte by byte, from a receiver that holds nothing and with no lane
standing idle over something to send, is taken whole: its kind, tag and body, and nothing else; and the receiver holds
nothing after it. That the record is taken in the event of its last byte, and that the receiver keeps that byte's time,
are the model's (logs 5, 6). -/
def Obligations.FramedRecordTaken : Prop :=
  ∀ (l : Link) (kind tag : Byte) (body : List Byte) (s : State) (since : Nat), s.resetAsserted = false →
    s.lanesRunning → s.receiver l = ⟨.hunt, [], since⟩ → body.length ≤ 250 →
    feed l (frame kind tag body) s =
      .next (State.takeRecord l (s.setReceiver l ⟨.hunt, [], s.time⟩) ⟨kind, tag, body⟩).startLanes

/-! ## What every command keeps -/

/-- No command makes the command buffer, the OVERLOAD replies, the report queue, the run log or the fault count pass
its bound (R175, R178, R183, R185), or a play queue its 32 entries (R164); leaves a channel in queue play without the
entry being played, which stands at index 0 and whose clip is the channel's source (R164); gives a channel another
speed than the one its state allows, where it allows one (0 in IDLE, CUED, JOG and FOLLOWING, and 1200 in LIVE; R69;
the range of PLAYING and SHUTTLE is SpeedLawKept), or leaves an outgoing lane idle while something waits for it (R113,
R181, R192). -/
def Obligations.BoundsKept : Prop :=
  ∀ s t : State, step s = .next t → (s.bounded → t.bounded) ∧ (s.queueLaw → t.queueLaw) ∧
    (s.speedsFit → s.gangLaw → t.speedsFit) ∧ (s.lanesRunning → t.lanesRunning)

/-- No command takes a speed out of its range (R44, R53, R69, R77, R92, R99 to R101, R147, R165): C and T of every
channel stay within −38,400 to +38,400 and A within 1 to 38,400, and so do the speeds of clips, bounces, queue entries
and shuttle curves that they are taken from. -/
def Obligations.SpeedLawKept : Prop := ∀ s t : State, step s = .next t → s.speedLaw → t.speedLaw

/-- No command breaks the law of gangs (R155): FOLLOWING channels are followers of a leader, on a train, outside queue
play. -/
def Obligations.GangLawKept : Prop := ∀ s t : State, step s = .next t → s.gangLaw → t.gangLaw

/-- No command breaks the law of the chains and the pools (R1 to R3, R24). -/
def Obligations.TrainLawKept : Prop := ∀ s t : State, step s = .next t → s.trainLaw → t.trainLaw

/-- No command breaks the forms of the tables: lock counts, clip ids, bindings (R26, R97, R130). -/
def Obligations.TableLawKept : Prop := ∀ s t : State, step s = .next t → s.tableLaw → t.tableLaw

/-- The ring keeps what it must (R2, R18, R20, R26, sections 1.1 and 1.4 to 1.6): but for a reset and the commands that
discard a train's material, no command lowers a serial counter, takes a locked extent out of a chain, or reserves a
locked extent. -/
def Obligations.RingKeepsLockedExtents : Prop :=
  ∀ (i : Instr) (s t : State) (x : TrainId), exec i s = .next t → s.trainLaw → s.tableLaw →
    i ≠ .powerOnReset → i ≠ .resetInputRelease → (∀ tag a, i ≠ .resetAll tag a) →
    (∀ tag a, i ≠ .configureTrain tag a) → (∀ tag a, i ≠ .releaseTrain tag a) →
    (s.train x).serialCounter ≤ (t.train x).serialCounter ∧
    (∀ e ∈ (s.train x).chain, 0 < lockCount s.locks e.extent → e.extent ∈ (t.train x).chain.map (·.extent)) ∧
    ∀ e, (t.train x).reserved = some e → 0 < lockCount s.locks e → (s.train x).reserved = some e

/-- The alarm line is held (R187, Table 10-3): while the line is driven and its hold runs, no command but a power-on
reset or the release of an asserted reset input releases it. -/
def Obligations.AlarmHeldWhileHoldRuns : Prop :=
  ∀ (i : Instr) (s t : State), exec i s = .next t → i ≠ .powerOnReset →
    (i = .resetInputRelease → s.resetAsserted = false) → s.alarm.line ≠ .deasserted →
    s.alarm.running s.time = true → t.alarm.line ≠ .deasserted
end

