-- ==== Sys2Proof/Laws/Framing.lean ====
section
/-! SUPPORT. What a receiver makes of a run of bytes, said once: the model's scan finds what R191 has it find. -/

namespace Sys2Proof.Machine

/-- The number in two length bytes. -/
theorem half_toNat (a b : Byte) : (half a b).toNat = a.toNat * 256 + b.toNat := by
  unfold half
  rw [BitVec.toNat_append, Nat.shiftLeft_eq, Nat.mul_comm, ← Nat.two_pow_add_eq_or_of_lt b.isLt, Nat.mul_comm]

/-- Bytes that are no start character are passed. -/
theorem scan_passed (pre bs : List Byte) (h : (0xC5 : Byte) ∉ pre) (k : Nat) :
    scan (k + pre.length) (pre ++ bs) = scan k bs := by
  induction pre with
  | nil => rfl
  | cons a pre ih =>
    have h' := not_or.1 fun e => h (List.mem_cons.2 e)
    rw [List.length_cons, ← Nat.add_assoc, List.cons_append]
    exact (if_neg (show ¬a = startChar from fun e => h'.1 e.symm)).trans (ih h'.2)

/-- An attempt with a length outside 2 to 252 fails. -/
theorem attempt_badLength (l1 l2 : Byte) (more : List Byte)
    (h : l1.toNat * 256 + l2.toNat < 2 ∨ 252 < l1.toNat * 256 + l2.toNat) : attempt (l1 :: l2 :: more) = .bad := by
  unfold attempt
  simp only [half_toNat, if_pos h]

/-- An attempt that lacks bytes is still collecting. -/
theorem attempt_collecting (l1 l2 : Byte) (more : List Byte) (h2 : 2 ≤ l1.toNat * 256 + l2.toNat)
    (h252 : l1.toNat * 256 + l2.toNat ≤ 252) (h : more.length < l1.toNat * 256 + l2.toNat + 2) :
    attempt (l1 :: l2 :: more) = .collecting := by
  unfold attempt
  simp only [half_toNat]
  rw [if_neg (by omega), if_pos h]

/-- An attempt whose bytes have all arrived is what its CRC makes of it. -/
theorem attempt_whole (l1 l2 kind tag hi lo : Byte) (body rest : List Byte)
    (h : body.length + 2 = l1.toNat * 256 + l2.toNat) (h252 : body.length ≤ 250) :
    attempt (l1 :: l2 :: (kind :: tag :: body ++ hi :: lo :: rest)) =
      if crc16 (l1 :: l2 :: kind :: tag :: body) = hi ++ lo then .good ⟨kind, tag, body⟩ rest else .bad := by
  have hsplit : kind :: tag :: body ++ hi :: lo :: rest = (kind :: tag :: body ++ [hi, lo]) ++ rest := by simp
  have hlen : (kind :: tag :: body ++ [hi, lo]).length = l1.toNat * 256 + l2.toNat + 2 := by simp; omega
  unfold attempt
  simp only [half_toNat]
  rw [if_neg (by omega), if_neg (by rw [hsplit, List.length_append, hlen]; omega), hsplit, ← hlen,
    List.take_left, List.drop_left]
  unfold checkFrame
  have hc : (kind :: tag :: body ++ [hi, lo]).length - 2 = (kind :: tag :: body).length := by simp
  simp only [hc, List.take_left, List.drop_left]
  rfl

/-- The bytes of a framed record: its start character, two length bytes, kind, tag, body and CRC. -/
theorem frame_bytes (kind tag : Byte) (body : List Byte) (h : body.length ≤ 250) :
    ∃ l1 l2 hi lo, frame kind tag body = 0xC5 :: l1 :: l2 :: (kind :: tag :: body ++ [hi, lo]) ∧
      body.length + 2 = l1.toNat * 256 + l2.toNat ∧ crc16 (l1 :: l2 :: kind :: tag :: body) = hi ++ lo := by
  refine ⟨BitVec.ofNat 8 ((body.length + 2) / 256), BitVec.ofNat 8 (body.length + 2), _, _, rfl, ?_, ?_⟩
  · simp only [BitVec.toNat_ofNat]
    omega
  · apply BitVec.eq_of_toNat_eq
    have hlt := (crc16 (u2 (body.length + 2) ++ kind :: tag :: body)).isLt
    have e := half_toNat (BitVec.ofNat 8 ((crc16 (u2 (body.length + 2) ++ kind :: tag :: body)).toNat / 256))
      (BitVec.ofNat 8 (crc16 (u2 (body.length + 2) ++ kind :: tag :: body)).toNat)
    simp only [BitVec.toNat_ofNat] at e
    refine Eq.trans ?_ e.symm
    change (crc16 (u2 (body.length + 2) ++ kind :: tag :: body)).toNat = _
    omega

/-- A search passes to its first start character. -/
theorem scan_start (pre bs : List Byte) (h : (0xC5 : Byte) ∉ pre) (k : Nat)
    (hk : (pre ++ 0xC5 :: bs).length < k) : ∃ n, bs.length < n ∧ scan k (pre ++ 0xC5 :: bs) =
      match attempt bs with
      | .collecting => ([], 0xC5 :: bs)
      | .bad => scan n bs
      | .good r rest => let more := scan n rest; (r :: more.1, more.2) := by
  rw [List.length_append, List.length_cons] at hk
  refine ⟨k - pre.length - 1, by omega, ?_⟩
  rw [show k = (k - pre.length - 1 + 1) + pre.length by omega, scan_passed pre _ h]
  simp only [Nat.add_sub_cancel]
  rfl

/-- The scan of any run of bytes, with fuel beyond its length, finds what R191 finds in it. -/
theorem scan_of_examined {bs : List Byte} {records : List Record} {st : ReceiverState} {held : List Byte}
    (h : Examined bs records st held) : ∀ k, bs.length < k → scan k bs = (records, held) := by
  induction h with
  | @passed bs hp =>
    intro k hk
    have e := scan_passed bs [] hp (k - bs.length)
    rw [List.append_nil, Nat.sub_add_cancel (Nat.le_of_lt hk)] at e
    rw [e, show k - bs.length = k - bs.length - 1 + 1 by omega]
    rfl
  | @header pre post hp hl =>
    intro k hk
    obtain ⟨n, -, e⟩ := scan_start pre post hp k hk
    rw [e]
    match post, hl with
    | [], _ => rfl
    | [_], _ => rfl
  | @collecting pre l1 l2 more hp h2 h252 hl =>
    intro k hk
    obtain ⟨n, -, e⟩ := scan_start pre _ hp k hk
    rw [e, attempt_collecting l1 l2 more h2 h252 hl]
  | @badLength pre l1 l2 more _ _ _ hp hl _ ih =>
    intro k hk
    obtain ⟨n, hn, e⟩ := scan_start pre _ hp k hk
    rw [e, attempt_badLength l1 l2 more hl]
    exact ih n hn
  | @badCrc pre l1 l2 content hi lo more _ _ _ hp h2 h252 hlen hcrc _ ih =>
    intro k hk
    obtain ⟨n, hn, e⟩ := scan_start pre _ hp k hk
    match content, h2 with
    | kind :: tag :: body, _ =>
      rw [List.length_cons, List.length_cons] at hlen h252
      rw [e, attempt_whole l1 l2 kind tag hi lo body more hlen (by omega), if_neg hcrc]
      exact ih n hn
  | @taken pre kind tag body rest _ _ _ hp hl _ ih =>
    intro k hk
    obtain ⟨l1, l2, hi, lo, hf, hlen, hcrc⟩ := frame_bytes kind tag body hl
    have hbytes : pre ++ frame kind tag body ++ rest =
        pre ++ 0xC5 :: (l1 :: l2 :: (kind :: tag :: body ++ hi :: lo :: rest)) := by rw [hf]; simp
    rw [hbytes] at hk ⊢
    obtain ⟨n, hn, e⟩ := scan_start pre _ hp k hk
    rw [e, attempt_whole l1 l2 kind tag hi lo body rest hlen hl, if_pos hcrc]
    simp only [List.length_cons, List.length_append] at hn
    dsimp only
    rw [ih n (by omega)]

/-- The state a receiver is left in is that of the bytes it is left with. -/
theorem state_of_examined {bs : List Byte} {records : List Record} {st : ReceiverState} {held : List Byte}
    (h : Examined bs records st held) : receiverStateOf held = st := by
  induction h with
  | passed _ => rfl
  | @header _ post _ hl => match post, hl with
    | [], _ => rfl
    | [_], _ => rfl
  | collecting => rfl
  | badLength _ _ _ ih => exact ih
  | badCrc _ _ _ _ _ _ ih => exact ih
  | taken _ _ _ ih => exact ih

/-- What a receiver does with a run of bytes, in R191's terms: the records in it are taken in turn, and the attempt
left at the end is held. -/
theorem examine_of_examined {bs : List Byte} {records : List Record} {st : ReceiverState} {held : List Byte}
    (h : Examined bs records st held) (s : State) (l : Link) (time : Nat) :
    s.examine l bs time = records.foldl (State.takeRecord l) (s.setReceiver l ⟨st, held, time⟩) := by
  unfold State.examine
  rw [scan_of_examined h _ (Nat.lt_succ_self _)]
  dsimp only
  rw [state_of_examined h]

end Sys2Proof.Machine
end

