-- ==== Sys2Proof/Laws/State.lean ====
section
/-! SUPPORT. What each update of a replicated record leaves and changes: one lemma per field per update, and reading
back what was written. -/

namespace Sys2Proof.Machine

/-! ## Every record at once -/

/-- A record after every record of its kind has been changed alike. -/
@[simp] theorem getElem_mapRecords {α : Type} {n : Nat} (f : α → α) (v : Vector α n) (i : Nat) (h : i < n) :
    (mapRecords f v)[i] = f v[i] := by simp [mapRecords]

/-! ## setTrain -/

section setTrain

variable (s : State) (i : TrainId) (r : Train)

@[simp] theorem setTrain_pending : (s.setTrain i r).pending = s.pending := rfl
@[simp] theorem setTrain_resetAsserted : (s.setTrain i r).resetAsserted = s.resetAsserted := rfl
@[simp] theorem setTrain_time : (s.setTrain i r).time = s.time := rfl
@[simp] theorem setTrain_timebase : (s.setTrain i r).timebase = s.timebase := rfl
@[simp] theorem setTrain_maps : (s.setTrain i r).maps = s.maps := rfl
@[simp] theorem setTrain_locks : (s.setTrain i r).locks = s.locks := rfl
@[simp] theorem setTrain_channels : (s.setTrain i r).channels = s.channels := rfl
@[simp] theorem setTrain_queues : (s.setTrain i r).queues = s.queues := rfl
@[simp] theorem setTrain_runLog : (s.setTrain i r).runLog = s.runLog := rfl
@[simp] theorem setTrain_panels : (s.setTrain i r).panels = s.panels := rfl
@[simp] theorem setTrain_clips : (s.setTrain i r).clips = s.clips := rfl
@[simp] theorem setTrain_guards : (s.setTrain i r).guards = s.guards := rfl
@[simp] theorem setTrain_port : (s.setTrain i r).port = s.port := rfl
@[simp] theorem setTrain_reports : (s.setTrain i r).reports = s.reports := rfl
@[simp] theorem setTrain_faults : (s.setTrain i r).faults = s.faults := rfl
@[simp] theorem setTrain_alarm : (s.setTrain i r).alarm = s.alarm := rfl
@[simp] theorem setTrain_ingest : (s.setTrain i r).ingest = s.ingest := rfl
@[simp] theorem setTrain_playout : (s.setTrain i r).playout = s.playout := rfl
@[simp] theorem setTrain_receivers : (s.setTrain i r).receivers = s.receivers := rfl
@[simp] theorem setTrain_freeReads : (s.setTrain i r).freeReads = s.freeReads := rfl
@[simp] theorem setTrain_map (j : TrainId) : (s.setTrain i r).map j = s.map j := rfl
@[simp] theorem setTrain_channel (j : ChannelId) : (s.setTrain i r).channel j = s.channel j := rfl
@[simp] theorem setTrain_queue (j : ChannelId) : (s.setTrain i r).queue j = s.queue j := rfl
@[simp] theorem setTrain_panel (j : PanelId) : (s.setTrain i r).panel j = s.panel j := rfl

/-- The record just written is read back. -/
@[simp] theorem setTrain_train_self : (s.setTrain i r).train i = r := by simp [State.setTrain, State.train]

/-- The other records stay. -/
theorem setTrain_train_ne {j : TrainId} (h : j ≠ i) : (s.setTrain i r).train j = s.train j := by
  have h' : i.val ≠ j.val := fun e => h (Fin.ext e.symm)
  simp [State.setTrain, State.train, Vector.getElem_set_ne _ _ h']

/-- Writing twice is writing the second. -/
@[simp] theorem setTrain_setTrain (r' : Train) : (s.setTrain i r).setTrain i r' = s.setTrain i r' := by
  simp [State.setTrain]

end setTrain

/-! ## setMap -/

section setMap

variable (s : State) (i : TrainId) (r : AnchorMap)

@[simp] theorem setMap_pending : (s.setMap i r).pending = s.pending := rfl
@[simp] theorem setMap_resetAsserted : (s.setMap i r).resetAsserted = s.resetAsserted := rfl
@[simp] theorem setMap_time : (s.setMap i r).time = s.time := rfl
@[simp] theorem setMap_timebase : (s.setMap i r).timebase = s.timebase := rfl
@[simp] theorem setMap_trains : (s.setMap i r).trains = s.trains := rfl
@[simp] theorem setMap_locks : (s.setMap i r).locks = s.locks := rfl
@[simp] theorem setMap_channels : (s.setMap i r).channels = s.channels := rfl
@[simp] theorem setMap_queues : (s.setMap i r).queues = s.queues := rfl
@[simp] theorem setMap_runLog : (s.setMap i r).runLog = s.runLog := rfl
@[simp] theorem setMap_panels : (s.setMap i r).panels = s.panels := rfl
@[simp] theorem setMap_clips : (s.setMap i r).clips = s.clips := rfl
@[simp] theorem setMap_guards : (s.setMap i r).guards = s.guards := rfl
@[simp] theorem setMap_port : (s.setMap i r).port = s.port := rfl
@[simp] theorem setMap_reports : (s.setMap i r).reports = s.reports := rfl
@[simp] theorem setMap_faults : (s.setMap i r).faults = s.faults := rfl
@[simp] theorem setMap_alarm : (s.setMap i r).alarm = s.alarm := rfl
@[simp] theorem setMap_ingest : (s.setMap i r).ingest = s.ingest := rfl
@[simp] theorem setMap_playout : (s.setMap i r).playout = s.playout := rfl
@[simp] theorem setMap_receivers : (s.setMap i r).receivers = s.receivers := rfl
@[simp] theorem setMap_freeReads : (s.setMap i r).freeReads = s.freeReads := rfl
@[simp] theorem setMap_train (j : TrainId) : (s.setMap i r).train j = s.train j := rfl
@[simp] theorem setMap_channel (j : ChannelId) : (s.setMap i r).channel j = s.channel j := rfl
@[simp] theorem setMap_queue (j : ChannelId) : (s.setMap i r).queue j = s.queue j := rfl
@[simp] theorem setMap_panel (j : PanelId) : (s.setMap i r).panel j = s.panel j := rfl

/-- The record just written is read back. -/
@[simp] theorem setMap_map_self : (s.setMap i r).map i = r := by simp [State.setMap, State.map]

/-- The other records stay. -/
theorem setMap_map_ne {j : TrainId} (h : j ≠ i) : (s.setMap i r).map j = s.map j := by
  have h' : i.val ≠ j.val := fun e => h (Fin.ext e.symm)
  simp [State.setMap, State.map, Vector.getElem_set_ne _ _ h']

/-- Writing twice is writing the second. -/
@[simp] theorem setMap_setMap (r' : AnchorMap) : (s.setMap i r).setMap i r' = s.setMap i r' := by
  simp [State.setMap]

end setMap

/-! ## setChannel -/

section setChannel

variable (s : State) (i : ChannelId) (r : Channel)

@[simp] theorem setChannel_pending : (s.setChannel i r).pending = s.pending := rfl
@[simp] theorem setChannel_resetAsserted : (s.setChannel i r).resetAsserted = s.resetAsserted := rfl
@[simp] theorem setChannel_time : (s.setChannel i r).time = s.time := rfl
@[simp] theorem setChannel_timebase : (s.setChannel i r).timebase = s.timebase := rfl
@[simp] theorem setChannel_trains : (s.setChannel i r).trains = s.trains := rfl
@[simp] theorem setChannel_maps : (s.setChannel i r).maps = s.maps := rfl
@[simp] theorem setChannel_locks : (s.setChannel i r).locks = s.locks := rfl
@[simp] theorem setChannel_queues : (s.setChannel i r).queues = s.queues := rfl
@[simp] theorem setChannel_runLog : (s.setChannel i r).runLog = s.runLog := rfl
@[simp] theorem setChannel_panels : (s.setChannel i r).panels = s.panels := rfl
@[simp] theorem setChannel_clips : (s.setChannel i r).clips = s.clips := rfl
@[simp] theorem setChannel_guards : (s.setChannel i r).guards = s.guards := rfl
@[simp] theorem setChannel_port : (s.setChannel i r).port = s.port := rfl
@[simp] theorem setChannel_reports : (s.setChannel i r).reports = s.reports := rfl
@[simp] theorem setChannel_faults : (s.setChannel i r).faults = s.faults := rfl
@[simp] theorem setChannel_alarm : (s.setChannel i r).alarm = s.alarm := rfl
@[simp] theorem setChannel_ingest : (s.setChannel i r).ingest = s.ingest := rfl
@[simp] theorem setChannel_playout : (s.setChannel i r).playout = s.playout := rfl
@[simp] theorem setChannel_receivers : (s.setChannel i r).receivers = s.receivers := rfl
@[simp] theorem setChannel_freeReads : (s.setChannel i r).freeReads = s.freeReads := rfl
@[simp] theorem setChannel_train (j : TrainId) : (s.setChannel i r).train j = s.train j := rfl
@[simp] theorem setChannel_map (j : TrainId) : (s.setChannel i r).map j = s.map j := rfl
@[simp] theorem setChannel_queue (j : ChannelId) : (s.setChannel i r).queue j = s.queue j := rfl
@[simp] theorem setChannel_panel (j : PanelId) : (s.setChannel i r).panel j = s.panel j := rfl

/-- The record just written is read back. -/
@[simp] theorem setChannel_channel_self : (s.setChannel i r).channel i = r := by simp [State.setChannel, State.channel]

/-- The other records stay. -/
theorem setChannel_channel_ne {j : ChannelId} (h : j ≠ i) : (s.setChannel i r).channel j = s.channel j := by
  have h' : i.val ≠ j.val := fun e => h (Fin.ext e.symm)
  simp [State.setChannel, State.channel, Vector.getElem_set_ne _ _ h']

/-- Writing twice is writing the second. -/
@[simp] theorem setChannel_setChannel (r' : Channel) : (s.setChannel i r).setChannel i r' = s.setChannel i r' := by
  simp [State.setChannel]

end setChannel

/-! ## setQueue -/

section setQueue

variable (s : State) (i : ChannelId) (r : PlayQueue)

@[simp] theorem setQueue_pending : (s.setQueue i r).pending = s.pending := rfl
@[simp] theorem setQueue_resetAsserted : (s.setQueue i r).resetAsserted = s.resetAsserted := rfl
@[simp] theorem setQueue_time : (s.setQueue i r).time = s.time := rfl
@[simp] theorem setQueue_timebase : (s.setQueue i r).timebase = s.timebase := rfl
@[simp] theorem setQueue_trains : (s.setQueue i r).trains = s.trains := rfl
@[simp] theorem setQueue_maps : (s.setQueue i r).maps = s.maps := rfl
@[simp] theorem setQueue_locks : (s.setQueue i r).locks = s.locks := rfl
@[simp] theorem setQueue_channels : (s.setQueue i r).channels = s.channels := rfl
@[simp] theorem setQueue_runLog : (s.setQueue i r).runLog = s.runLog := rfl
@[simp] theorem setQueue_panels : (s.setQueue i r).panels = s.panels := rfl
@[simp] theorem setQueue_clips : (s.setQueue i r).clips = s.clips := rfl
@[simp] theorem setQueue_guards : (s.setQueue i r).guards = s.guards := rfl
@[simp] theorem setQueue_port : (s.setQueue i r).port = s.port := rfl
@[simp] theorem setQueue_reports : (s.setQueue i r).reports = s.reports := rfl
@[simp] theorem setQueue_faults : (s.setQueue i r).faults = s.faults := rfl
@[simp] theorem setQueue_alarm : (s.setQueue i r).alarm = s.alarm := rfl
@[simp] theorem setQueue_ingest : (s.setQueue i r).ingest = s.ingest := rfl
@[simp] theorem setQueue_playout : (s.setQueue i r).playout = s.playout := rfl
@[simp] theorem setQueue_receivers : (s.setQueue i r).receivers = s.receivers := rfl
@[simp] theorem setQueue_freeReads : (s.setQueue i r).freeReads = s.freeReads := rfl
@[simp] theorem setQueue_train (j : TrainId) : (s.setQueue i r).train j = s.train j := rfl
@[simp] theorem setQueue_map (j : TrainId) : (s.setQueue i r).map j = s.map j := rfl
@[simp] theorem setQueue_channel (j : ChannelId) : (s.setQueue i r).channel j = s.channel j := rfl
@[simp] theorem setQueue_panel (j : PanelId) : (s.setQueue i r).panel j = s.panel j := rfl

/-- The record just written is read back. -/
@[simp] theorem setQueue_queue_self : (s.setQueue i r).queue i = r := by simp [State.setQueue, State.queue]

/-- The other records stay. -/
theorem setQueue_queue_ne {j : ChannelId} (h : j ≠ i) : (s.setQueue i r).queue j = s.queue j := by
  have h' : i.val ≠ j.val := fun e => h (Fin.ext e.symm)
  simp [State.setQueue, State.queue, Vector.getElem_set_ne _ _ h']

/-- Writing twice is writing the second. -/
@[simp] theorem setQueue_setQueue (r' : PlayQueue) : (s.setQueue i r).setQueue i r' = s.setQueue i r' := by
  simp [State.setQueue]

end setQueue

/-! ## setPanel -/

section setPanel

variable (s : State) (i : PanelId) (r : Panel)

@[simp] theorem setPanel_pending : (s.setPanel i r).pending = s.pending := rfl
@[simp] theorem setPanel_resetAsserted : (s.setPanel i r).resetAsserted = s.resetAsserted := rfl
@[simp] theorem setPanel_time : (s.setPanel i r).time = s.time := rfl
@[simp] theorem setPanel_timebase : (s.setPanel i r).timebase = s.timebase := rfl
@[simp] theorem setPanel_trains : (s.setPanel i r).trains = s.trains := rfl
@[simp] theorem setPanel_maps : (s.setPanel i r).maps = s.maps := rfl
@[simp] theorem setPanel_locks : (s.setPanel i r).locks = s.locks := rfl
@[simp] theorem setPanel_channels : (s.setPanel i r).channels = s.channels := rfl
@[simp] theorem setPanel_queues : (s.setPanel i r).queues = s.queues := rfl
@[simp] theorem setPanel_runLog : (s.setPanel i r).runLog = s.runLog := rfl
@[simp] theorem setPanel_clips : (s.setPanel i r).clips = s.clips := rfl
@[simp] theorem setPanel_guards : (s.setPanel i r).guards = s.guards := rfl
@[simp] theorem setPanel_port : (s.setPanel i r).port = s.port := rfl
@[simp] theorem setPanel_reports : (s.setPanel i r).reports = s.reports := rfl
@[simp] theorem setPanel_faults : (s.setPanel i r).faults = s.faults := rfl
@[simp] theorem setPanel_alarm : (s.setPanel i r).alarm = s.alarm := rfl
@[simp] theorem setPanel_ingest : (s.setPanel i r).ingest = s.ingest := rfl
@[simp] theorem setPanel_playout : (s.setPanel i r).playout = s.playout := rfl
@[simp] theorem setPanel_receivers : (s.setPanel i r).receivers = s.receivers := rfl
@[simp] theorem setPanel_freeReads : (s.setPanel i r).freeReads = s.freeReads := rfl
@[simp] theorem setPanel_train (j : TrainId) : (s.setPanel i r).train j = s.train j := rfl
@[simp] theorem setPanel_map (j : TrainId) : (s.setPanel i r).map j = s.map j := rfl
@[simp] theorem setPanel_channel (j : ChannelId) : (s.setPanel i r).channel j = s.channel j := rfl
@[simp] theorem setPanel_queue (j : ChannelId) : (s.setPanel i r).queue j = s.queue j := rfl

/-- The record just written is read back. -/
@[simp] theorem setPanel_panel_self : (s.setPanel i r).panel i = r := by simp [State.setPanel, State.panel]

/-- The other records stay. -/
theorem setPanel_panel_ne {j : PanelId} (h : j ≠ i) : (s.setPanel i r).panel j = s.panel j := by
  have h' : i.val ≠ j.val := fun e => h (Fin.ext e.symm)
  simp [State.setPanel, State.panel, Vector.getElem_set_ne _ _ h']

/-- Writing twice is writing the second. -/
@[simp] theorem setPanel_setPanel (r' : Panel) : (s.setPanel i r).setPanel i r' = s.setPanel i r' := by
  simp [State.setPanel]

end setPanel

/-! ## setReceiver -/

section setReceiver

variable (s : State) (l : Link) (r : Receiver)

@[simp] theorem setReceiver_pending : (s.setReceiver l r).pending = s.pending := rfl
@[simp] theorem setReceiver_resetAsserted : (s.setReceiver l r).resetAsserted = s.resetAsserted := rfl
@[simp] theorem setReceiver_time : (s.setReceiver l r).time = s.time := rfl
@[simp] theorem setReceiver_timebase : (s.setReceiver l r).timebase = s.timebase := rfl
@[simp] theorem setReceiver_trains : (s.setReceiver l r).trains = s.trains := rfl
@[simp] theorem setReceiver_maps : (s.setReceiver l r).maps = s.maps := rfl
@[simp] theorem setReceiver_locks : (s.setReceiver l r).locks = s.locks := rfl
@[simp] theorem setReceiver_channels : (s.setReceiver l r).channels = s.channels := rfl
@[simp] theorem setReceiver_queues : (s.setReceiver l r).queues = s.queues := rfl
@[simp] theorem setReceiver_runLog : (s.setReceiver l r).runLog = s.runLog := rfl
@[simp] theorem setReceiver_panels : (s.setReceiver l r).panels = s.panels := rfl
@[simp] theorem setReceiver_clips : (s.setReceiver l r).clips = s.clips := rfl
@[simp] theorem setReceiver_guards : (s.setReceiver l r).guards = s.guards := rfl
@[simp] theorem setReceiver_port : (s.setReceiver l r).port = s.port := rfl
@[simp] theorem setReceiver_reports : (s.setReceiver l r).reports = s.reports := rfl
@[simp] theorem setReceiver_faults : (s.setReceiver l r).faults = s.faults := rfl
@[simp] theorem setReceiver_alarm : (s.setReceiver l r).alarm = s.alarm := rfl
@[simp] theorem setReceiver_ingest : (s.setReceiver l r).ingest = s.ingest := rfl
@[simp] theorem setReceiver_playout : (s.setReceiver l r).playout = s.playout := rfl
@[simp] theorem setReceiver_freeReads : (s.setReceiver l r).freeReads = s.freeReads := rfl

/-- Each link has a receiver of its own. -/
theorem linkIndex_injective {l m : Link} (h : linkIndex l = linkIndex m) : l = m := by
  have hv : (linkIndex l).val = (linkIndex m).val := congrArg Fin.val h
  cases l with
  | panel p =>
    cases m with
    | panel q => exact congrArg Link.panel (Fin.ext (Nat.add_left_cancel hv))
    | control => exact absurd hv (by change 3 + p.val ≠ 0; omega)
    | ingest => exact absurd hv (by change 3 + p.val ≠ 1; omega)
    | playout => exact absurd hv (by change 3 + p.val ≠ 2; omega)
  | control =>
    cases m with
    | panel q => exact absurd hv (by change 0 ≠ 3 + q.val; omega)
    | control => rfl
    | ingest => exact absurd hv (by decide)
    | playout => exact absurd hv (by decide)
  | ingest =>
    cases m with
    | panel q => exact absurd hv (by change 1 ≠ 3 + q.val; omega)
    | control => exact absurd hv (by decide)
    | ingest => rfl
    | playout => exact absurd hv (by decide)
  | playout =>
    cases m with
    | panel q => exact absurd hv (by change 2 ≠ 3 + q.val; omega)
    | control => exact absurd hv (by decide)
    | ingest => exact absurd hv (by decide)
    | playout => rfl

/-- The receiver just written is read back. -/
@[simp] theorem setReceiver_self : (s.setReceiver l r).receiver l = r := by
  simp [State.setReceiver, State.receiver]

/-- The other receivers stay. -/
theorem setReceiver_ne {m : Link} (h : m ≠ l) : (s.setReceiver l r).receiver m = s.receiver m := by
  have h' : (linkIndex l).val ≠ (linkIndex m).val := fun e => h (linkIndex_injective (Fin.ext e)).symm
  simp [State.setReceiver, State.receiver, Vector.getElem_set_ne _ _ h']

end setReceiver

/-! ## formReply -/

section formReply

variable (s : State) (kind tag : Byte) (st : Status) (body : ReplyBody) (o : Bool)

@[simp] theorem formReply_pending : (s.formReply kind tag st body o).pending = s.pending := rfl
@[simp] theorem formReply_resetAsserted : (s.formReply kind tag st body o).resetAsserted = s.resetAsserted := rfl
@[simp] theorem formReply_time : (s.formReply kind tag st body o).time = s.time := rfl
@[simp] theorem formReply_timebase : (s.formReply kind tag st body o).timebase = s.timebase := rfl
@[simp] theorem formReply_trains : (s.formReply kind tag st body o).trains = s.trains := rfl
@[simp] theorem formReply_maps : (s.formReply kind tag st body o).maps = s.maps := rfl
@[simp] theorem formReply_locks : (s.formReply kind tag st body o).locks = s.locks := rfl
@[simp] theorem formReply_channels : (s.formReply kind tag st body o).channels = s.channels := rfl
@[simp] theorem formReply_queues : (s.formReply kind tag st body o).queues = s.queues := rfl
@[simp] theorem formReply_runLog : (s.formReply kind tag st body o).runLog = s.runLog := rfl
@[simp] theorem formReply_panels : (s.formReply kind tag st body o).panels = s.panels := rfl
@[simp] theorem formReply_clips : (s.formReply kind tag st body o).clips = s.clips := rfl
@[simp] theorem formReply_guards : (s.formReply kind tag st body o).guards = s.guards := rfl
@[simp] theorem formReply_reports : (s.formReply kind tag st body o).reports = s.reports := rfl
@[simp] theorem formReply_faults : (s.formReply kind tag st body o).faults = s.faults := rfl
@[simp] theorem formReply_alarm : (s.formReply kind tag st body o).alarm = s.alarm := rfl
@[simp] theorem formReply_ingest : (s.formReply kind tag st body o).ingest = s.ingest := rfl
@[simp] theorem formReply_playout : (s.formReply kind tag st body o).playout = s.playout := rfl
@[simp] theorem formReply_receivers : (s.formReply kind tag st body o).receivers = s.receivers := rfl
@[simp] theorem formReply_freeReads : (s.formReply kind tag st body o).freeReads = s.freeReads := rfl
@[simp] theorem formReply_train (j : TrainId) : (s.formReply kind tag st body o).train j = s.train j := rfl
@[simp] theorem formReply_map (j : TrainId) : (s.formReply kind tag st body o).map j = s.map j := rfl
@[simp] theorem formReply_channel (j : ChannelId) : (s.formReply kind tag st body o).channel j = s.channel j := rfl
@[simp] theorem formReply_queue (j : ChannelId) : (s.formReply kind tag st body o).queue j = s.queue j := rfl
@[simp] theorem formReply_panel (j : PanelId) : (s.formReply kind tag st body o).panel j = s.panel j := rfl

/-- A reply formed waits behind the others. -/
@[simp] theorem formReply_replies : (s.formReply kind tag st body o).port.replies =
    s.port.replies ++ [{ reply := { kind := kind, tag := tag, status := st, body := body }, overload := o }] := rfl

/-- Forming a reply leaves the buffered commands. -/
@[simp] theorem formReply_waiting : (s.formReply kind tag st body o).port.waiting = s.port.waiting := rfl

end formReply

/-! ## setClip -/

section setClip

variable (s : State) (k : Clip)

@[simp] theorem setClip_pending : (s.setClip k).pending = s.pending := rfl
@[simp] theorem setClip_resetAsserted : (s.setClip k).resetAsserted = s.resetAsserted := rfl
@[simp] theorem setClip_time : (s.setClip k).time = s.time := rfl
@[simp] theorem setClip_timebase : (s.setClip k).timebase = s.timebase := rfl
@[simp] theorem setClip_trains : (s.setClip k).trains = s.trains := rfl
@[simp] theorem setClip_maps : (s.setClip k).maps = s.maps := rfl
@[simp] theorem setClip_locks : (s.setClip k).locks = s.locks := rfl
@[simp] theorem setClip_channels : (s.setClip k).channels = s.channels := rfl
@[simp] theorem setClip_queues : (s.setClip k).queues = s.queues := rfl
@[simp] theorem setClip_runLog : (s.setClip k).runLog = s.runLog := rfl
@[simp] theorem setClip_panels : (s.setClip k).panels = s.panels := rfl
@[simp] theorem setClip_guards : (s.setClip k).guards = s.guards := rfl
@[simp] theorem setClip_port : (s.setClip k).port = s.port := rfl
@[simp] theorem setClip_reports : (s.setClip k).reports = s.reports := rfl
@[simp] theorem setClip_faults : (s.setClip k).faults = s.faults := rfl
@[simp] theorem setClip_alarm : (s.setClip k).alarm = s.alarm := rfl
@[simp] theorem setClip_ingest : (s.setClip k).ingest = s.ingest := rfl
@[simp] theorem setClip_playout : (s.setClip k).playout = s.playout := rfl
@[simp] theorem setClip_receivers : (s.setClip k).receivers = s.receivers := rfl
@[simp] theorem setClip_freeReads : (s.setClip k).freeReads = s.freeReads := rfl

end setClip

end Sys2Proof.Machine
end

