-- ==== Sys2Proof/Laws/Ops.lean ====
section
/-! SUPPORT. What each shared operation can do, said once: reports and faults, a channel's commit, sessions and the
run log, the turn of a command at the port, lock counts. -/

namespace Sys2Proof.Machine

/-! ## Reports and faults -/

/-- Raising a report changes the report unit alone. -/
theorem raise_eq (s : State) (b : ReportBody) : ∃ r, s.raise b = { s with reports := r } := by
  unfold State.raise
  dsimp only
  split
  · exact ⟨_, rfl⟩
  · exact ⟨s.reports, rfl⟩

/-- A report handed to a queue of at most 64 leaves at most 64 (R183). -/
theorem hand_length (u : ReportUnit) (r : Report) (h : u.queue.length ≤ 64) : (u.hand r).queue.length ≤ 64 := by
  unfold ReportUnit.hand
  split
  · simp; omega
  · dsimp only
    split
    · split
      · rename_i victim hv
        have hm := List.mem_of_find?_eq_some hv
        have hp := List.find?_some hv
        have he : (u.queue.reverse.eraseP fun r => r.priority == lowestPriority u.queue).length
            = u.queue.reverse.length - 1 := List.length_eraseP_of_mem hm hp
        simp only [List.length_append, dropYoungest, List.length_reverse, he, List.length_cons, List.length_nil]
        have : 0 < u.queue.length := List.length_pos_of_mem (List.mem_reverse.mp hm)
        omega
      · exact h
    · exact h

/-- Driving the line for a selected kind changes the alarm alone. -/
theorem drive_eq (s : State) (k : FaultKind) :
    ∃ a, (if s.alarm.selects k then { s with alarm := s.alarm.drive s.time } else s) = { s with alarm := a } := by
  split
  · exact ⟨_, rfl⟩
  · exact ⟨s.alarm, rfl⟩

/-- Recording a fault changes the fault record, the report unit and the alarm alone. -/
theorem recordFault_eq (s : State) (k : FaultKind) (o : Option Nat) :
    ∃ f r a, s.recordFault k o = { s with faults := f, reports := r, alarm := a } := by
  unfold State.recordFault
  dsimp only
  obtain ⟨r, hr⟩ := raise_eq
    { s with faults :=
      { first := if s.faults.count = 0 then some { kind := k, object := o, time := s.time } else s.faults.first,
        latest := some { kind := k, object := o, time := s.time },
        count := if s.faults.count < 65535 then s.faults.count + 1 else s.faults.count } }
    (.recorded k o s.time (if s.faults.count < 65535 then s.faults.count + 1 else s.faults.count))
  rw [hr]
  exact ⟨_, _, _, (drive_eq _ k).choose_spec⟩

/-! ## Panels and channels -/

/-- Disarming the panel bound to a channel changes the panels alone. -/
theorem disarm_eq (s : State) (c : ChannelId) : ∃ p, s.disarm c = { s with panels := p } := by
  unfold State.disarm
  split
  · exact ⟨_, rfl⟩
  · exact ⟨s.panels, rfl⟩

/-- Disarming a LOST panel changes the panels alone. -/
theorem disarmLost_eq (s : State) (c : ChannelId) : ∃ p, s.disarmLost c = { s with panels := p } := by
  unfold State.disarmLost
  split
  · split
    · exact ⟨_, rfl⟩
    · exact ⟨s.panels, rfl⟩
  · exact ⟨s.panels, rfl⟩

/-- Disarming under a condition changes the panels alone. -/
theorem disarmLost_if (q : Prop) [Decidable q] (s : State) (c : ChannelId) :
    ∃ p, (if q then s.disarmLost c else s) = { s with panels := p } := by
  split
  · exact disarmLost_eq s c
  · exact ⟨s.panels, rfl⟩

/-- Raising under a condition changes the report unit alone. -/
theorem raise_if (q : Prop) [Decidable q] (s : State) (b : ReportBody) :
    ∃ r, (if q then s.raise b else s) = { s with reports := r } := by
  split
  · exact raise_eq s b
  · exact ⟨s.reports, rfl⟩

/-- A commit stores the channel's new record, less what leaving its old state discards, and otherwise changes the
panels and the report unit alone. -/
theorem commit_eq (s : State) (c : ChannelId) (cause : Cause) (new : Channel) :
    ∃ p r, s.commit c cause new =
      { s with channels := s.channels.set c.val (new.leave (s.channel c)), panels := p, reports := r } := by
  unfold State.commit
  dsimp only
  obtain ⟨p, hp⟩ := disarmLost_if ((s.channel c).state = .shuttle ∧ new.state ≠ .shuttle)
    (s.setChannel c (new.leave (s.channel c))) c
  rw [hp]
  exact ⟨p, (raise_if _ _ _).choose, (raise_if _ _ _).choose_spec⟩

/-- The channel after a commit. -/
theorem commit_channel_self (s : State) (c : ChannelId) (cause : Cause) (new : Channel) :
    (s.commit c cause new).channel c = new.leave (s.channel c) := by
  obtain ⟨p, r, h⟩ := commit_eq s c cause new
  rw [h]
  simp [State.channel]

/-- The other channels after a commit. -/
theorem commit_channel_ne (s : State) {c d : ChannelId} (cause : Cause) (new : Channel) (hd : d ≠ c) :
    (s.commit c cause new).channel d = s.channel d := by
  obtain ⟨p, r, h⟩ := commit_eq s c cause new
  have h' : c.val ≠ d.val := fun e => hd (Fin.ext e.symm)
  rw [h]
  simp [State.channel, Vector.getElem_set_ne _ _ h']

/-- Leaving a state changes no state, source, head or speed. -/
theorem leave_fields (new old : Channel) :
    (new.leave old).state = new.state ∧ (new.leave old).source = new.source ∧ (new.leave old).head = new.head ∧
      (new.leave old).speed = new.speed ∧ (new.leave old).target = new.target ∧ (new.leave old).role = new.role :=
  ⟨rfl, rfl, rfl, rfl, rfl, rfl⟩

/-- Entering a state sets it and keeps the source, the head and the role. -/
theorem enter_fields (ch : Channel) (st : TransportState) :
    (ch.enter st).state = st ∧ (ch.enter st).source = ch.source ∧ (ch.enter st).head = ch.head ∧
      (ch.enter st).role = ch.role := by
  cases st <;> exact ⟨rfl, rfl, rfl, rfl⟩

/-! ## Sessions and the run log -/

/-- An append changes the run log and the report unit alone. -/
theorem appendRun_eq (s : State) (e : RunEntry) : ∃ l r, s.appendRun e = { s with runLog := l, reports := r } := by
  unfold State.appendRun
  dsimp only
  obtain ⟨r, hr⟩ := raise_eq
    { s with runLog := if s.runLog.entries.length < 256 then { s.runLog with entries := s.runLog.entries ++ [e] }
        else { entries := s.runLog.entries.drop 1 ++ [e], overrun := true } }
    (.appended e.channel e.clip e.outcome
      (if s.runLog.entries.length < 256 then { s.runLog with entries := s.runLog.entries ++ [e] }
        else { entries := s.runLog.entries.drop 1 ++ [e], overrun := true } : RunLog).entries.length)
  rw [hr]
  exact ⟨_, r, rfl⟩

/-- Counting a present changes the queue unit's records of its channel and the count of free values alone. -/
theorem countPresent_eq (s : State) (c : ChannelId) (n : Nat) :
    ∃ q k, s.countPresent c n = { s with queues := q, freeReads := k } := by
  unfold State.countPresent
  split
  · exact ⟨s.queues, s.freeReads, rfl⟩
  · exact ⟨_, _, rfl⟩

/-- Ending a session changes the queue unit's records, the run log, the report unit and the count of free values
alone. -/
theorem endSession_eq (s : State) (c : ChannelId) (o : RunOutcome) (req : Option Nat) :
    ∃ q l r k, s.endSession c o req = { s with queues := q, runLog := l, reports := r, freeReads := k } := by
  unfold State.endSession
  cases req with
  | none =>
    dsimp only
    split
    · exact ⟨s.queues, s.runLog, s.reports, s.freeReads, rfl⟩
    · rename_i x hx
      obtain ⟨l, r, h⟩ := appendRun_eq (s.setQueue c { s.queue c with session := none })
        { channel := c, clip := x.clip, train := x.train, outcome := o, firstCount := x.firstCount,
          lastCount := x.lastCount, presented := x.presented }
      rw [h]
      exact ⟨_, l, r, s.freeReads, rfl⟩
  | some n =>
    obtain ⟨q, k, hc⟩ := countPresent_eq s c n
    dsimp only
    rw [hc]
    split
    · exact ⟨q, s.runLog, s.reports, k, rfl⟩
    · rename_i x hx
      obtain ⟨l, r, h⟩ := appendRun_eq
        (State.setQueue { s with queues := q, freeReads := k } c
          { State.queue { s with queues := q, freeReads := k } c with session := none })
        { channel := c, clip := x.clip, train := x.train, outcome := o, firstCount := x.firstCount,
          lastCount := x.lastCount, presented := x.presented }
      rw [h]
      exact ⟨_, l, r, k, rfl⟩

/-- Opening a session changes the queue unit's records alone. -/
theorem openSession_eq (s : State) (c : ChannelId) : ∃ q, s.openSession c = { s with queues := q } := by
  unfold State.openSession
  split
  · split
    · exact ⟨_, rfl⟩
    · exact ⟨s.queues, rfl⟩
  · exact ⟨s.queues, rfl⟩

/-- Opening a session when none is open changes the queue unit's records alone. -/
theorem openIfNone_eq (s : State) (c : ChannelId) : ∃ q, s.openIfNone c = { s with queues := q } := by
  unfold State.openIfNone
  split
  · exact openSession_eq s c
  · exact ⟨s.queues, rfl⟩

/-- A run log of at most 256 entries stays so (R175). -/
theorem appendRun_length (s : State) (e : RunEntry) (h : s.runLog.entries.length ≤ 256) :
    (s.appendRun e).runLog.entries.length ≤ 256 := by
  unfold State.appendRun
  dsimp only
  obtain ⟨r, hr⟩ := raise_eq
    { s with runLog := if s.runLog.entries.length < 256 then { s.runLog with entries := s.runLog.entries ++ [e] }
        else { entries := s.runLog.entries.drop 1 ++ [e], overrun := true } }
    (.appended e.channel e.clip e.outcome
      (if s.runLog.entries.length < 256 then { s.runLog with entries := s.runLog.entries ++ [e] }
        else { entries := s.runLog.entries.drop 1 ++ [e], overrun := true } : RunLog).entries.length)
  rw [hr]
  dsimp only
  split
  · simp; omega
  · simp; omega

/-! ## The command port -/

/-- A command the port takes from u is carried out on s. -/
theorem turn_takes {u s : State} {i : Instr} (h : u.takes i s) (kind tag : Byte) (carry : State → State) :
    u.turn i kind tag carry = carry s := by
  obtain ⟨-, ⟨hw, hp, rfl⟩ | ⟨rest, hw, rfl⟩⟩ := h
  · unfold State.turn
    rw [hw]
    simp [hp]
  · unfold State.turn
    rw [hw]
    simp

/-- A command row with its fields, taken from u: its block's verdict on s, answered. -/
theorem command_takes {α : Type} {u s : State} {i : Instr} (h : u.takes i s) (kind tag : Byte) (a : α)
    (f : α → State → Verdict) :
    command i kind tag (.fields a) f u = .next (s.conclude kind tag (f a s)).startLanes := by
  unfold command powered
  dsimp only
  rw [turn_takes h, h.1]
  rfl

/-- A command row whose body has the wrong length, taken from u. -/
theorem command_badLength {α : Type} {u s : State} {i : Instr} (h : u.takes i s) (kind tag : Byte)
    (f : α → State → Verdict) :
    command i kind tag (.badLength : Sent α) f u =
      .next (s.formReply kind tag .badLength .empty false).startLanes := by
  unfold command powered
  dsimp only
  rw [turn_takes h, h.1]
  rfl

/-- A command row whose body holds a byte outside its listed values, taken from u. -/
theorem command_badByte {α : Type} {u s : State} {i : Instr} (h : u.takes i s) (kind tag : Byte)
    (f : α → State → Verdict) :
    command i kind tag (.badByte : Sent α) f u =
      .next (s.formReply kind tag .badValue .empty false).startLanes := by
  unfold command powered
  dsimp only
  rw [turn_takes h, h.1]
  rfl

/-- An OK verdict's answer. -/
theorem conclude_done (s t : State) (kind tag : Byte) (body : ReplyBody) :
    s.conclude kind tag (.done t body) = t.formReply kind tag .ok body false := rfl

/-- A refusal's answer. -/
theorem conclude_refuse (s : State) (kind tag : Byte) (st : Status) :
    s.conclude kind tag (.refuse st) = s.formReply kind tag st .empty false := rfl

/-! ## The lanes -/

/-- Starting the control lane changes the command port and the report unit alone. -/
theorem startControl_eq (s : State) : ∃ p r, s.startControl = { s with port := p, reports := r } := by
  unfold State.startControl State.sendControl
  split
  · split
    · exact ⟨_, s.reports, rfl⟩
    · split
      · exact ⟨_, _, rfl⟩
      · exact ⟨_, s.reports, rfl⟩
  · exact ⟨s.port, s.reports, rfl⟩

/-- Starting the lanes changes the command port, the report unit, the answer lanes and the panels alone. -/
theorem startLanes_eq (s : State) :
    ∃ p r i o v, s.startLanes = { s with port := p, reports := r, ingest := i, playout := o, panels := v } := by
  obtain ⟨p, r, h⟩ := startControl_eq s
  unfold State.startLanes
  rw [h]
  exact ⟨p, r, _, _, _, rfl⟩

/-- A panel after the lanes have started: an idle lane has begun its pending echo. -/
theorem startLanes_panel (s : State) (p : PanelId) : s.startLanes.panel p = (s.panel p).startEcho := by
  obtain ⟨q, r, h⟩ := startControl_eq s
  unfold State.startLanes State.panel
  rw [h]
  simp

/-- A queue that holds a report has a next one (R183). -/
theorem nextReport_none {q : List Report} (h : nextReport q = none) : q = [] := by
  have high : ∀ l : List Report, l ≠ [] → ∃ r ∈ l, r.priority = highestPriority l := by
    intro l
    induction l with
    | nil => exact fun h => absurd rfl h
    | cons a rest ih =>
      intro _
      have hh : highestPriority (a :: rest) = max a.priority (highestPriority rest) := rfl
      by_cases hr : rest = []
      · exact ⟨a, by simp, by simp [hr, highestPriority]⟩
      · obtain ⟨r, hm, hp⟩ := ih hr
        by_cases hle : highestPriority rest ≤ a.priority
        · exact ⟨a, by simp, by rw [hh]; omega⟩
        · exact ⟨r, by simp [hm], by rw [hh, hp]; omega⟩
  by_contra hq
  obtain ⟨r, hm, hp⟩ := high q hq
  have := List.find?_eq_none.mp h r hm
  simp [hp] at this

/-- An idle answer lane begins what it has. -/
theorem lane_start_idle {α : Type} (l : Lane α) : l.start.sending = none → l.start.waiting = [] := by
  unfold Lane.start Lane.advance
  split
  · split <;> simp
  · rename_i h
    intro hn
    simp [hn] at h

/-- After the lanes have started none stands idle while something waits for it. -/
theorem startLanes_lanesRunning (s : State) : s.startLanes.lanesRunning := by
  refine ⟨?_, lane_start_idle _, lane_start_idle _, fun p => ?_⟩
  · show s.startControl.port.sending = none →
      s.startControl.port.replies = [] ∧ s.startControl.reports.queue = []
    unfold State.startControl State.sendControl
    split
    · split
      · simp
      · rename_i hr
        split
        · simp
        · rename_i hq
          exact fun _ => ⟨hr, nextReport_none hq⟩
    · rename_i h
      intro hn
      simp [hn] at h
  · rw [startLanes_panel]
    unfold Panel.startEcho Panel.sendEcho
    split
    · exact fun _ => rfl
    · rename_i h
      intro hn
      simp [hn] at h

/-- Lanes that run are left as they are. -/
theorem startLanes_running {s : State} (h : s.lanesRunning) : s.startLanes = s := by
  obtain ⟨hc, hi, ho, hp⟩ := h
  have lane : ∀ {α : Type} (l : Lane α), (l.sending = none → l.waiting = []) → l.start = l := by
    intro α l hl
    obtain ⟨w, g⟩ := l
    cases g with
    | none =>
      have hw : w = [] := hl rfl
      subst hw
      rfl
    | some a => rfl
  have control : s.startControl = s := by
    unfold State.startControl State.sendControl
    cases hs : s.port.sending with
    | some a => rfl
    | none =>
      obtain ⟨hr, hq⟩ := hc hs
      have hp : ({ waiting := s.port.waiting, replies := [], sending := none } : CommandPort) = s.port := by
        rcases hport : s.port with ⟨w, rs, g⟩
        simp_all
      simp only [Option.isNone_none, ↓reduceIte, hr, hq, nextReport, List.find?_nil]
      rw [hp]
  have panels : mapRecords Panel.startEcho s.panels = s.panels := by
    ext p hlt : 1
    have he : (s.panels[p]).sending = none → (s.panels[p]).pendingEcho = none := hp ⟨p, hlt⟩
    rw [getElem_mapRecords]
    unfold Panel.startEcho Panel.sendEcho
    cases hs : (s.panels[p]).sending with
    | some a => rfl
    | none =>
      have hn := he hs
      rcases hrec : s.panels[p] with ⟨b, c, a, i, l, e, g⟩
      simp_all
  unfold State.startLanes
  rw [control]
  dsimp only
  rw [lane _ hi, lane _ ho, panels]

/-! ## Lock counts -/

/-- The first extent a canonical list holds, if any, is above e. -/
def locksAbove (e : Nat) : List (Nat × Nat) → Bool
  | [] => true
  | (x, _) :: _ => decide (e < x)

/-- A canonical list with one more entry in front. -/
theorem locksWf_cons (x n : Nat) (rest : List (Nat × Nat)) :
    locksWf ((x, n) :: rest) = (decide (0 < n) && locksAbove x rest && locksWf rest) := by
  cases rest with
  | nil => simp [locksWf, locksAbove]
  | cons y ys =>
    obtain ⟨y, m⟩ := y
    simp [locksWf, locksAbove, Bool.and_assoc]

/-- Setting a count above x keeps what stands above x. -/
theorem locksAbove_setLock {x e : Nat} (h : x < e) : ∀ (l : List (Nat × Nat)) (n : Nat),
    locksAbove x l = true → locksWf l = true → locksAbove x (setLock l e n) = true
  | [], n, _, _ => by
    unfold setLock
    split
    · rfl
    · simpa [locksAbove] using h
  | (y, m) :: rest, n, ha, hw => by
    unfold setLock
    have hy : x < y := by simpa [locksAbove] using ha
    split
    · split
      · exact ha
      · simpa [locksAbove] using h
    · split
      · split
        · rw [locksWf_cons] at hw
          simp only [Bool.and_eq_true] at hw
          cases rest with
          | nil => rfl
          | cons z zs =>
            obtain ⟨z, k⟩ := z
            have hz : y < z := by simpa [locksAbove] using hw.1.2
            simp [locksAbove]
            omega
        · simpa [locksAbove] using h
      · simpa [locksAbove] using hy

/-- Setting a lock count keeps the canonical form. -/
theorem setLock_wf (e n : Nat) : ∀ l : List (Nat × Nat), locksWf l = true → locksWf (setLock l e n) = true
  | [], _ => by
    unfold setLock
    split
    · rfl
    · simp [locksWf]; omega
  | (x, m) :: rest, h => by
    have hc := h
    rw [locksWf_cons] at hc
    simp only [Bool.and_eq_true] at hc
    unfold setLock
    split
    · split
      · exact h
      · rw [locksWf_cons]
        simp [locksAbove, h]
        omega
    · split
      · split
        · exact hc.2
        · rename_i he hn
          subst he
          rw [locksWf_cons]
          simp [hc.1.2, hc.2]
          omega
      · rename_i h1 h2
        rw [locksWf_cons]
        simp only [setLock_wf e n rest hc.2, locksAbove_setLock (by omega : x < e) rest n hc.1.2 hc.2, hc.1.1,
          Bool.and_self]

/-- Raising a count keeps the canonical form. -/
theorem raiseLock_wf {l : List (Nat × Nat)} (e : Nat) (h : locksWf l = true) : locksWf (raiseLock l e) = true :=
  setLock_wf _ _ l h

/-- Lowering a count keeps the canonical form. -/
theorem lowerLock_wf {l : List (Nat × Nat)} (e : Nat) (h : locksWf l = true) : locksWf (lowerLock l e) = true :=
  setLock_wf _ _ l h

/-- A count of an extent below every extent of a canonical list is 0. -/
theorem lockCount_below {e : Nat} : ∀ (l : List (Nat × Nat)),
    locksAbove e l = true → locksWf l = true → lockCount l e = 0
  | [], _, _ => rfl
  | (x, m) :: rest, ha, hw => by
    have hx : e < x := by simpa [locksAbove] using ha
    rw [locksWf_cons] at hw
    simp only [Bool.and_eq_true] at hw
    have hr : locksAbove e rest = true := by
      cases rest with
      | nil => rfl
      | cons y ys =>
        obtain ⟨y, k⟩ := y
        have hy : x < y := by simpa [locksAbove] using hw.1.2
        simp [locksAbove]
        omega
    unfold lockCount
    rw [if_neg (by omega)]
    exact lockCount_below rest hr hw.2

/-- A lock count just set is read back, and every other count stays (R26). -/
theorem lockCount_setLock (e n d : Nat) : ∀ l : List (Nat × Nat), locksWf l = true →
    lockCount (setLock l e n) d = if d = e then n else lockCount l d
  | [], _ => by
    unfold setLock
    split
    · rename_i hn
      simp [lockCount, hn]
    · by_cases hd : d = e
      · simp [lockCount, hd]
      · simp [lockCount, hd]
        omega
  | (x, m) :: rest, h => by
    have hc := h
    rw [locksWf_cons] at hc
    simp only [Bool.and_eq_true] at hc
    unfold setLock
    split
    · rename_i hlt
      split
      · rename_i hn
        by_cases hd : d = e
        · subst hd
          rw [if_pos rfl, lockCount_below _ (by simpa [locksAbove] using hlt) h, hn]
        · rw [if_neg hd]
      · by_cases hd : d = e
        · subst hd
          simp [lockCount]
        · rw [if_neg hd, lockCount, if_neg (fun e' => hd e'.symm)]
    · split
      · rename_i he
        subst he
        split
        · rename_i hn
          by_cases hd : d = e
          · subst hd
            rw [if_pos rfl, lockCount_below rest hc.1.2 hc.2, hn]
          · rw [if_neg hd, lockCount, if_neg (fun e' => hd e'.symm)]
        · by_cases hd : d = e
          · subst hd
            simp [lockCount]
          · rw [if_neg hd, lockCount, lockCount, if_neg (fun e' => hd e'.symm), if_neg (fun e' => hd e'.symm)]
      · rename_i h1 h2
        have ih := lockCount_setLock e n d rest hc.2
        by_cases hx : x = d
        · subst hx
          rw [if_neg (by omega)]
          simp [lockCount]
        · simp only [lockCount, if_neg hx]
          exact ih

end Sys2Proof.Machine
end

