-- ==== Sys2Proof/Tests/Slice0.lean ====
section
/-! SUPPORT. The author's tests: the smoke test of WellFormed, records decoded, the worked examples of spec/ on single
commands, and for each obligation states and operands that meet its hypotheses. Expected values are those of the tables
of spec/ named in the docstrings. -/

namespace Sys2Proof.Tests

open Sys2Proof.Machine

/-! ## WellFormed refuses ill-formed terms -/

set_option maxRecDepth 8000 in
theorem test_wellFormed_body_too_long :
    (Instr.commandArrival 0x10 0 (List.replicate 251 0)).wellFormed = false := by decide

theorem test_wellFormed_known_kind : (Instr.unknownKind 0x10 0).wellFormed = false := by decide

theorem test_wellFormed_plain_bodies :
    ([Instr.configureTrain 0 .badByte, .releaseTrain 0 .badByte, .startTrain 0 .badByte, .stopTrain 0 .badByte,
      .queryAnchors 0 .badByte, .selectTrain 0 .badByte, .unload 0 .badByte, .setSpeed 0 .badByte, .pause 0 .badByte,
      .setAccel 0 .badByte, .setTargetBank 0 .badByte, .setAngleGroup 0 .badByte, .angle 0 .badByte,
      .angleNext 0 .badByte, .gang 0 .badByte, .ungang 0 .badByte, .bind 0 .badByte, .setCurve 0 .badByte,
      .queryCurve 0 .badByte, .setSilence 0 .badByte, .markIn 0 .badByte, .markOut 0 .badByte,
      .clearMarks 0 .badByte, .take 0 .badByte, .lockClip 0 .badByte, .unlockClip 0 .badByte, .trimClip 0 .badByte,
      .deleteClip 0 .badByte, .clearBank 0 .badByte, .clearAll 0 .badByte].all fun i => !i.wellFormed) = true := by
  decide

theorem test_wellFormed_plain_bodies_more :
    ([Instr.guardBank 0 .badByte, .unguardBank 0 .badByte, .rate 0 .badByte, .queryClip 0 .badByte,
      .listBank 0 .badByte, .queueRemove 0 .badByte, .queueClear 0 .badByte, .queryQueue 0 .badByte,
      .queueStart 0 .badByte, .queueNext 0 .badByte, .readRunlog 0 .badByte, .flushRunlog 0 .badByte,
      .queryStatusTrains 0 .badByte, .queryStatusChannels 0 .badByte, .readFaults 0 .badByte, .clearFaults 0 .badByte,
      .setAlarm 0 .badByte, .resetPlayback 0 .badByte].all fun i => !i.wellFormed) = true := by
  decide

set_option maxRecDepth 8000 in
theorem test_wellFormed_lists_too_long :
    (Instr.setAngleGroup 0 (.fields ⟨0, List.replicate 249 0⟩)).wellFormed = false ∧
    (Instr.setCurve 0 (.fields ⟨0, List.replicate 42 ⟨0, 0⟩⟩)).wellFormed = false ∧
    (Instr.setReports 0 (.fields (List.replicate 84 ⟨.clip, true, 0⟩))).wellFormed = false ∧
    (Instr.rename 0 (.fields ⟨0, List.replicate 17 65⟩)).wellFormed = false := by decide

set_option maxRecDepth 8000 in
theorem test_wellFormed_accepts :
    (Instr.commandArrival 0x10 0 (List.replicate 250 0)).wellFormed = true ∧
    (Instr.unknownKind 0x66 0).wellFormed = true ∧ (Instr.clearAll 0 .badLength).wellFormed = true ∧
    (Instr.rename 0 (.fields ⟨0, List.replicate 16 65⟩)).wellFormed = true := by decide

/-! ## Records decoded (Tables 11-2 and 11-3: most significant byte first) -/

theorem test_decode_configureTrain :
    decodeCommand 0x10 7 [3, 0, 100, 0, 6, 1] = .configureTrain 7 (.fields ⟨3, 100, 6, 1⟩) := by decide

theorem test_decode_play :
    decodeCommand 0x23 1 [0, 1, 0xFF, 0xFF, 0xFB, 0x50] = .play 1 (.fields ⟨0, some 0xFFFFFB50⟩) ∧
    decodeCommand 0x23 1 [0, 0, 0, 0, 0, 0] = .play 1 (.fields ⟨0, none⟩) ∧
    decodeCommand 0x23 1 [0, 2, 0, 0, 0, 0] = .play 1 .badByte ∧
    decodeCommand 0x23 1 [0] = .play 1 .badLength := by decide

theorem test_decode_angle : decodeCommand 0x30 2 [4, 7] = .angle 2 (.fields ⟨4, 7⟩) := by decide

theorem test_decode_setCurve :
    decodeCommand 0x39 3 [1, 2, 0, 0, 0, 0, 0, 0, 3, 0xE8, 0, 0, 4, 0xB0] =
      .setCurve 3 (.fields ⟨1, [⟨0, 0⟩, ⟨1000, 1200⟩]⟩) := by decide

theorem test_decode_take : decodeCommand 0x43 9 [5] = .take 9 (.fields 5) := by decide

theorem test_decode_trimClip :
    decodeCommand 0x4A 4 [0, 70, 1, 0, 0, 4, 0x40, 0, 0, 4, 0x60] =
      .trimClip 4 (.fields ⟨70, 1, 1088, 1120⟩) := by decide

theorem test_decode_flushRunlog : decodeCommand 0x5F 0 [] = .flushRunlog 0 (.fields ()) := by decide

/-- The end-action byte is looked at in every mode of its part (R193). -/
theorem test_decode_setClipPlay :
    (∀ mode ∈ ([0, 1, 2] : List Byte),
      decodeCommand 0x52 0 ([0, 5, mode, 4] ++ List.replicate 15 0) = .setClipPlay 0 .badByte) ∧
    decodeCommand 0x52 0 ([0, 5, 1, 3] ++ List.replicate 15 0) = .setClipPlay 0 (.fields ⟨5, .clear, .keep, .keep⟩) := by
  decide

theorem test_decode_setAlarm :
    decodeCommand 0x64 0 [0x3F, 0, 0, 1, 0xF4] = .setAlarm 0 (.fields ⟨0x3F, 500⟩) := by decide

theorem test_decode_unknownKind : decodeCommand 0x0F 1 [] = .unknownKind 0x0F 1 ∧
    decodeCommand 0x66 1 [] = .unknownKind 0x66 1 := by decide

set_option maxRecDepth 8000 in
/-- R191's own example. -/
theorem test_crc16 : crc16 [0x31, 0x32, 0x33, 0x34, 0x35, 0x36, 0x37, 0x38, 0x39] = 0x29B1 := by decide

/-! ## Reading answers -/

/-- The state a command leaves; the state itself when there is none. -/
def after (i : Instr) (s : State) : State :=
  match exec i s with
  | .next t => t
  | _ => s

/-- The status and body of the newest reply formed: the last one waiting, else the one being sent. -/
def answer (s : State) : Option (Status × ReplyBody) :=
  match s.port.replies.getLast?, s.port.sending with
  | some r, _ => some (r.reply.status, r.reply.body)
  | none, some (.reply r) => some (r.status, r.body)
  | none, _ => none

/-- The bodies of the reports raised: the one being sent, and those queued, oldest first. -/
def reported (s : State) : List ReportBody :=
  (match s.port.sending with
    | some (.report r) => [r.body]
    | _ => []) ++ s.reports.queue.map (·.body)

/-- A state that waits for nothing takes any command at once. -/
theorem takes_now (s : State) (i : Instr) (h : s.resetAsserted = false) (hw : s.port.waiting = [])
    (hr : s.port.replies = []) : s.takes i s := by
  refine ⟨h, .inl ⟨hw, ?_, rfl⟩⟩
  simp [CommandPort.placesHeld, hw, hr]

/-! ## Fixtures -/

/-- A train holding serials first to last in one extent, as Table 6-2 gives its material. -/
def holding (st : TrainState) (m first last : Nat) : Train :=
  { State.reset.train 0 with
    state := st, multiple := m, pool := some ⟨0, 4⟩, chain := [⟨0, first, last + 1 - first⟩], cursor := some 0,
    serialCounter := last + 1 }

/-- One anchor. -/
def anchored (serial tcnum phase : Nat) : AnchorMap := { anchors := [⟨serial, tcnum, phase⟩], lastLabel := none }

/-- The trains of Table 6-2. -/
def cameras : State :=
  { State.reset with
    trains := (((State.reset.trains.set 0 (holding .recording 1 12000 12700)).set 4
      (holding .recording 3 30000 30500)).set 8 (holding .recording 6 60000 62200)).set 11 (holding .idle 2 5000 7099)
    maps := (((State.reset.maps.set 0 (anchored 12000 1799500 0)).set 4 (anchored 30000 1800000 0)).set 8
      (anchored 60000 1799800 0)).set 11 (anchored 5000 1799000 0) }

/-- Clip 5 of Table 6-5. -/
def clip5 : Clip :=
  { id := 5, state := .valid, lock := .unlocked, primary := 1
    angles := [⟨0, 12600, 12650, true, false, false⟩, ⟨4, 30301, 30452, true, false, false⟩,
      ⟨8, 61802, 62105, true, false, false⟩]
    inTime := ⟨1800100, 1⟩, outTime := ⟨1800150, 2⟩, name := none, rating := 0, endAction := none, speed := none
    bounce := none }

/-- Channel 0 in a state, on a source, at a head. -/
def placed (st : TransportState) (src : Source) (head : Nat) (s : State) : State :=
  s.setChannel 0 { s.channel 0 with state := st, source := src, head := head }

/-- The cameras with clip 5 in the table. -/
def clipped : State := { cameras with clips := [clip5] }

/-- Channel A in LIVE on train 4. -/
def liveOnTrain : State :=
  let s := placed .live (.train 4) 36600000 cameras
  s.setChannel 0 { s.channel 0 with speed := 1200, target := 1200 }

/-- Channel A as Table 8-2 starts it: clip 5, angle 1, PLAYING at 400 su, a session open. -/
def playingClip : State :=
  let s := placed .playing (.clip 5 1) 36432000 clipped
  let s := s.setChannel 0 { s.channel 0 with speed := 400, target := 400 }
  s.setQueue 0 { s.queue 0 with session := some (freshSession 5 4) }

/-- Channel A as Table 6-3 leaves it: on train 4 with both marks and the angle group 0, 4, 11, 8; bank 0 holds ids 0 to
4 and 6. -/
def marked : State :=
  let blank := fun id => ({ clip5 with id := id, angles := [⟨11, 5000, 5010, true, false, false⟩], primary := 0 } : Clip)
  let s := placed .shuttle (.train 4) 36542400 cameras
  { s.setChannel 0 { s.channel 0 with
      markIn := some ⟨4, 30301, 1800100, 1⟩, markOut := some ⟨4, 30452, 1800150, 2⟩, angleGroup := [0, 4, 11, 8] } with
    clips := [blank 0, blank 1, blank 2, blank 3, blank 4, blank 6] }

/-! ## Worked examples of spec/, one command each -/

/-- Table 2-2: labels and numbers; 10:00:00:00 at 50 is 1,800,000 (section 6.4). -/
theorem test_labels : Timebase.number ⟨50, false⟩ ⟨10, 0, 0, 0⟩ = 1800000 ∧
    Timebase.label ⟨50, false⟩ 1800150 = ⟨10, 0, 3, 0⟩ ∧ Timebase.number ⟨25, false⟩ ⟨23, 59, 59, 20⟩ = 2159995 ∧
    Timebase.day ⟨25, false⟩ = 2160000 := by decide

/-- Table 2-5: the head of train A (here 4) mapped onto a train of multiple 1 (here 0). -/
theorem test_mapHead :
    mapAcross ⟨50, false⟩ (holding .recording 3 900 1100) (anchored 900 1800000 0) (holding .recording 1 5000 5100)
      (anchored 5000 1799990 0) 1200600 = .found 6052200 := by decide

/-- Table 6-1. -/
theorem test_outPhase : outPhase 0 6 4 = 1 ∧ outPhase 1 8 3 = 5 ∧ outPhase 2 4 6 = 1 ∧ outPhase 0 4 3 = 1 := by
  decide

/-- Table 1-4: at serial 431 the search goes from extent 101 and finds it reclaimable; at 495 locked extent 102 is
passed over. -/
theorem test_candidate :
    let t : Train := { holding .recording 1 0 0 with
      pool := some ⟨100, 6⟩, cursor := some 101
      chain := [⟨102, 128, 64⟩, ⟨103, 192, 64⟩, ⟨104, 256, 64⟩, ⟨105, 320, 64⟩, ⟨100, 384, 64⟩, ⟨101, 448, 48⟩] }
    t.candidate [(102, 1)] = some 103 ∧ t.candidate [] = some 102 := by decide

/-- R8 on Table 1-4's pool. -/
theorem test_configureTrain :
    let t := after (.configureTrain 7 (.fields ⟨3, 100, 6, 1⟩)) State.reset
    (t.train 3).state = .idle ∧ (t.train 3).cursor = some 105 ∧ (t.train 3).firstFrame = true ∧
      answer t = some (.ok, .empty) := by decide

/-- Train 5 of Table 1-5, stalled, with locks on 20 and 22. -/
def stalled : State :=
  { State.reset with
    trains := State.reset.trains.set 5 { State.reset.train 5 with
      state := .stalled, pool := some ⟨20, 4⟩, cursor := some 23, serialCounter := 256
      chain := [⟨20, 0, 64⟩, ⟨21, 64, 64⟩, ⟨22, 128, 64⟩, ⟨23, 192, 64⟩] }
    locks := [(20, 1), (22, 1)] }

/-- Table 1-5, last row. -/
theorem test_frameOpen_resumes :
    let t := after (.frameOpen 1 5 ⟨0, 0, 5, 6, 0⟩) stalled
    t.ingest.sending = some (1, .grant 5 1344 256) ∧ (t.train 5).state = .recording ∧
      (t.train 5).chain = [⟨20, 0, 64⟩, ⟨22, 128, 64⟩, ⟨23, 192, 64⟩, ⟨21, 256, 0⟩] := by decide

/-- Table 6-5. -/
theorem test_take :
    let t := after (.take 1 (.fields 0)) marked
    t.clipOf 5 = some clip5 ∧ (t.channel 0).markIn = none ∧ (t.channel 0).markOut = none ∧
      reported t = [.committed 0 5 3 4 .valid] := by decide

/-- Table 8-2, first row: the ANGLE_NEXT key. -/
theorem test_angleNext :
    let t := after (.angleNext 1 (.fields 0)) playingClip
    (t.channel 0).head = 61920 * 1200 ∧ (t.channel 0).source = .clip 5 2 ∧
      (t.queue 0).session = some (freshSession 5 8) := by decide

/-- Table 8-3, first row. -/
theorem test_gang :
    let s := cameras.setChannel 2 { cameras.channel 2 with state := .playing, source := .train 4, head := 36432000 }
    let t := after (.gang 1 (.fields ⟨2, 0⟩)) s
    (t.channel 3).head = 12620 * 1200 ∧ (t.channel 3).role = .follower .tracking ∧
      (t.channel 2).role = .leader := by decide

/-- Table 3-3, request 1: the frames shown, with blend on; and Table 3-4, with blend off. -/
theorem test_framesOf :
    let t := holding .recording 3 960 1023
    framesOf t 1023 1200900 true = (1000, some 1001, 192) ∧ framesOf t 1023 1203600 true = (1003, none, 0) ∧
      framesOf t 1023 1202700 false = (1002, none, 0) ∧ framesOf t 1023 1200900 false = (1001, none, 0) := by decide

/-- Channel D of Table 3-6 (here A), before request 5003, on the chain around the hole. -/
def overHole : State :=
  let t : Train := { holding .recording 1 0 0 with
    chain := [⟨300, 1984, 64⟩, ⟨302, 2112, 64⟩, ⟨303, 2176, 64⟩], serialCounter := 2240 }
  let k : Clip := { clip5 with
    id := 40, primary := 0, state := .partialClip, angles := [⟨4, 2000, 2200, true, true, false⟩] }
  let s := placed .playing (.clip 40 0) 2455200
    { State.reset with trains := State.reset.trains.set 4 t, clips := [k] }
  let s := s.setQueue 0 { s.queue 0 with session := some (freshSession 40 4) }
  s.setChannel 0 { s.channel 0 with speed := 2400, target := 2400, lastServed := some 5001 }

/-- Table 3-6, request 5003: two sub-steps, the first snapped across the hole. -/
theorem test_frameRequest_hole :
    let t := after (.frameRequest 9 0 5003) overHole
    (t.channel 0).head = 2536800 ∧ reported t = [.holeSkipped 0 4 2048 2112] ∧
      ((t.channel 0).lastPresent.bind (·.frame)).map (·.primary) = some 19330 := by decide

/-- Table 3-6, request 5046: the out point reached, STOP. -/
def atOutPoint : State := overHole.setChannel 0 { overHole.channel 0 with head := 2637600, lastServed := some 5045 }

theorem test_frameRequest_stop :
    let t := after (.frameRequest 9 0 5046) atOutPoint
    (t.channel 0).head = 2640000 ∧ (t.channel 0).state = .cued ∧
      t.runLog.entries = [⟨0, 40, 4, .complete, some 5046, some 5046, 1⟩] := by decide

/-- Table 4-7, request 4: catch-up to live. -/
def behindLive : State :=
  let t : Train := { holding .idle 2 9984 10000 with serialCounter := 10001 }
  let s := placed .playing (.train 7) 11995200 { State.reset with trains := State.reset.trains.set 7 t }
  s.setChannel 0 { s.channel 0 with speed := 1800, target := 2400, accel := 600, lastServed := some 3 }

theorem test_frameRequest_catchUp :
    let t := after (.frameRequest 9 0 4) behindLive
    (t.channel 0).state = .live ∧ (t.channel 0).head = 12000000 ∧ (t.channel 0).speed = 1200 ∧
      (reported t).length = 2 := by decide

/-- Table 4-6, request 2: a reversal at the out point. -/
theorem test_frameRequest_bounce :
    let k : Clip := { clip5 with
      id := 18, primary := 0, angles := [⟨1, 3000, 3004, true, false, false⟩], endAction := some .bounce
      speed := some 2400, bounce := some ⟨2400, 1200, 2⟩ }
    let s := placed .playing (.clip 18 0) 3602400
      { State.reset with trains := State.reset.trains.set 1 (holding .idle 1 2990 3020), clips := [k] }
    let t := after (.frameRequest 9 0 2) (s.setChannel 0 { s.channel 0 with
      speed := 2400, target := 2400, lastServed := some 1, bounce := some ⟨.forward, some 2⟩ })
    (t.channel 0).head = 3604800 ∧ (t.channel 0).speed = -1200 ∧
      (t.channel 0).bounce = some ⟨.reverse, some 1⟩ := by decide

/-- Table 5-7: the default curve at 800, 220 and 12. -/
theorem test_leverSpeed : leverSpeed defaultCurve 800 = 3000 ∧ leverSpeed defaultCurve 220 = 300 ∧
    leverSpeed defaultCurve (-800) = -3000 ∧ leverSpeed defaultCurve 12 = 0 := by decide

/-- Channel A CUED on train 0 with panel 1 bound, armed. -/
def leverReady : State :=
  let s := placed .cued (.train 0) 14520000 cameras
  s.setPanel 1 { s.panel 1 with binding := some 0, arm := .armed }

/-- Table 5-7, the row at 1050. -/
theorem test_wheel :
    let t := after (.wheel 1 800) leverReady
    (t.channel 0).state = .shuttle ∧ (t.channel 0).target = 3000 ∧ (t.channel 0).speed = 0 := by decide

/-- The clip and chains of Tables 7-3 and 7-4 before LOCK_CLIP. -/
def lockReady : State :=
  let k : Clip := { clip5 with
    id := 70, primary := 0, state := .partialClip
    angles := [⟨6, 1000, 1150, true, true, false⟩, ⟨9, 4000, 4300, true, false, false⟩] }
  { State.reset with
    trains := (State.reset.trains.set 6 { holding .recording 1 0 0 with
      chain := [⟨500, 960, 64⟩, ⟨502, 1088, 64⟩, ⟨503, 1152, 64⟩] }).set 9 { holding .recording 2 0 0 with
      chain := [⟨80, 3968, 64⟩, ⟨81, 4032, 64⟩, ⟨82, 4096, 64⟩, ⟨83, 4160, 64⟩, ⟨84, 4224, 64⟩, ⟨85, 4288, 64⟩] }
    clips := [k], locks := [(500, 1)] }

/-- Table 7-4, LOCK_CLIP 70. -/
theorem test_lockClip :
    let t := after (.lockClip 1 (.fields 70)) lockReady
    t.locks = [(80, 1), (81, 1), (82, 1), (83, 1), (84, 1), (85, 1), (500, 2), (502, 1)] ∧
      answer t = some (.ok, .lockCounts 8) := by decide

/-- Table 7-4, TRIM_CLIP 70, angle 0, 1088 to 1120. -/
theorem test_trimClip :
    let t := after (.trimClip 2 (.fields ⟨70, 0, 1088, 1120⟩)) (after (.lockClip 1 (.fields 70)) lockReady)
    answer t = some (.ok, .trim 1088 1120 false .valid (-1)) ∧ lockCount t.locks 500 = 1 ∧
      lockCount t.locks 502 = 1 := by decide

set_option maxRecDepth 4000 in
/-- Table 10-5: a priority 1 report displaces the youngest RUNLOG report. -/
theorem test_report_displaces :
    let full := List.replicate 14 (⟨.pushed 0 0 0 0, 0, 2⟩ : Report) ++ List.replicate 50 ⟨.appended 0 0 .complete 1, 0, 0⟩
    let u := ReportUnit.hand { State.reset.reports with queue := full } ⟨.stalled 0, 0, 1⟩
    u.queue.length = 64 ∧ u.lost = #v[false, false, false, false, true, false] ∧
      (u.queue.countP fun r => r.priority == 0) = 49 := by decide

/-- Section 10.8: CLEAR_FAULTS 200 ms after the fault waits for the hold end at 500 ms. -/
theorem test_clearFaults_waits :
    let s := State.recordFault State.reset .playoutGap (some 0)
    let t := after (.clearFaults 1 (.fields ())) { s with time := 200 }
    t.alarm.line = .clearing ∧ (after .holdEnd { t with time := 499 }).alarm.line = .clearing ∧
      (after .holdEnd { t with time := 500 }).alarm.line = .deasserted := by decide

/-- Table 9-3, request 1038 (channel A for B): the entry ends and the next is cut to, both sessions counted. -/
def queuePlay : State :=
  let a : Clip := { clip5 with id := 20, primary := 0, angles := [⟨2, 500, 519, true, false, false⟩] }
  let b : Clip := { clip5 with id := 22, primary := 0, angles := [⟨3, 800, 839, true, false, false⟩], speed := some 1200 }
  let s := placed .playing (.clip 20 0) 622200 { State.reset with
    trains := (State.reset.trains.set 2 (holding .idle 1 480 600)).set 3 (holding .idle 2 780 900), clips := [a, b] }
  let s := s.setQueue 0 ⟨[⟨20, none, some 600⟩, ⟨22, none, none⟩], true, some ⟨20, 2, some 1001, some 1037, 37⟩⟩
  s.setChannel 0 { s.channel 0 with speed := 600, target := 600, accel := 38400, lastServed := some 1037 }

theorem test_frameRequest_queue :
    let t := after (.frameRequest 9 0 1038) queuePlay
    (t.channel 0).head = 960000 ∧ (t.channel 0).speed = 1200 ∧
      t.queue 0 = ⟨[⟨22, none, none⟩], true, some ⟨22, 3, some 1038, some 1038, 1⟩⟩ ∧
      t.runLog.entries = [⟨0, 20, 2, .complete, some 1001, some 1038, 38⟩] := by decide

/-- In queue play at speed -600, a reverse step reaches lo: CUED there, the session open, queue play going on (R82,
R172). -/
theorem test_frameRequest_queueLow :
    let t := after (.frameRequest 9 0 1038) (queuePlay.setChannel 0 { queuePlay.channel 0 with
      head := 600600, speed := -600, target := -600 })
    (t.channel 0).state = .cued ∧ (t.channel 0).head = 600000 ∧ (t.queue 0).playing = true ∧
      (t.queue 0).session = some ⟨20, 2, some 1001, some 1038, 38⟩ ∧ t.runLog = State.reset.runLog := by decide

/-- Section 9.6, QUEUE_NEXT instead. -/
theorem test_queueNext :
    let t := after (.queueNext 1 (.fields 0)) queuePlay
    (t.channel 0).source = .clip 22 0 ∧ (t.channel 0).speed = 1200 ∧
      t.runLog.entries = [⟨0, 20, 2, .cutShort, some 1001, some 1037, 37⟩] := by decide

/-! ## Witnesses: each obligation's hypotheses met together, clause by clause -/

/-- A hypothesis about what an optional value holds, met by the value it holds. -/
theorem of_some {α : Type} {p : α → Prop} {o : Option α} {a : α} (h : o = some a) (hp : p a) :
    ∀ b, o = some b → p b := by
  intro b hb
  rw [h] at hb
  cases hb
  exact hp

/-- A hypothesis about what an absent value holds. -/
theorem of_none {α : Type} {p : α → Prop} {o : Option α} (h : o = none) : ∀ b, o = some b → p b := by
  intro b hb
  rw [h] at hb
  cases hb

/-- Two commands waiting. -/
def busyPort : State :=
  { State.reset with port := { State.reset.port with
      waiting := [.unload 1 (.fields 0), .holdEnd], sending := none } }

/-- A full command buffer. -/
def fullPort : State :=
  { State.reset with port := { State.reset.port with
      waiting := [.unload 1 (.fields 0), .unload 2 (.fields 0), .unload 3 (.fields 0), .unload 4 (.fields 0)] } }

/-- One OVERLOAD reply. -/
def overloadReply : WaitingReply := ⟨⟨0x22, 0, .overload, .empty⟩, true⟩

/-- A full command buffer with 8 OVERLOAD replies waiting. -/
def floodedPort : State :=
  { fullPort with port := { fullPort.port with replies := List.replicate 8 overloadReply } }

/-- Four replies waiting: no place is free and nothing waits to be carried out. -/
def repliesPort : State :=
  { State.reset with port := { State.reset.port with replies := List.replicate 4 ⟨⟨0x22, 0, .ok, .empty⟩, false⟩ } }

theorem witness_StepTakesFront :
    ({ State.reset with pending := [.holdEnd] } : State).pending = [.holdEnd] ∧
    ({ State.reset with resetAsserted := true } : State).pending = [] ∧
    busyPort.pending = [] ∧ busyPort.resetAsserted = false ∧ busyPort.ownEvent = some (.unload 1 (.fields 0)) ∧
    State.reset.ownEvent = none := by decide

theorem witness_ResetInput :
    ({ State.reset with resetAsserted := true } : State).resetAsserted = true ∧ State.reset.resetAsserted = false ∧
    Instr.holdEnd ≠ .powerOnReset ∧ Instr.holdEnd ≠ .resetInputRelease := by decide

/-- A fault at time 0 drives the line until 500 ms. -/
def alarmed : State := State.recordFault State.reset .playoutGap (some 0)

theorem witness_ResetCommands :
    alarmed.takes (.resetAll 1 (.fields ())) alarmed ∧ alarmed.takes (.resetPlayback 1 (.fields ())) alarmed ∧
    alarmed.alarm.line = .asserted ∧ alarmed.alarm.hold.isSome = true ∧ alarmed.alarm.running 499 = true ∧
    alarmed.alarm.running 500 = false ∧ (after (.clearFaults 1 (.fields ())) alarmed).alarm.line = .clearing ∧
    (after (.clearFaults 1 (.fields ())) alarmed).alarm.hold.isSome = true ∧
    State.reset.alarm.line ≠ .asserted := by
  refine ⟨takes_now _ _ rfl rfl rfl, takes_now _ _ rfl rfl rfl, ?_⟩
  decide

theorem witness_CommandArrival :
    State.reset.port.placesHeld < 4 ∧ fullPort.port.placesHeld = 4 ∧ fullPort.port.overloads = 0 ∧
    floodedPort.port.overloads = 8 ∧ repliesPort.port.waiting = [] ∧ repliesPort.port.placesHeld = 4 ∧
    (∃ j rest, busyPort.port.waiting = j :: rest ∧ j ≠ decodeCommand 0x22 2 [0]) :=
  ⟨by decide, by decide, by decide, by decide, by decide, by decide, _, _, rfl, by decide⟩

theorem witness_KindAndLengthChecked :
    State.reset.takes (.unknownKind 0x0F 1) State.reset ∧ commandKind 0x0F = false ∧
    fixedLength 0x22 = some 1 ∧ State.reset.takes (decodeCommand 0x22 1 []) State.reset ∧
    ([7, 2, 1] : List Byte).length ≠ 2 + 1 * 2 ∧ State.reset.takes (decodeCommand 0x2C 1 [7, 2, 1]) State.reset ∧
    fixedLength 0x14 = some ([25, 2] : List Byte).length ∧ 2 ≤ (([25, 2] : List Byte).getD 1 0).toNat ∧
    (∀ body, State.reset.takes (decodeCommand 0x14 1 body) State.reset) ∧
    (∀ mode ∈ ([0, 1, 2] : List Byte), let body : List Byte := [0, 5, mode, 4] ++ List.replicate 15 0
      fixedLength 0x52 = some body.length ∧ 4 ≤ (body.getD 3 0).toNat) ∧
    (∀ body, State.reset.takes (decodeCommand 0x52 1 body) State.reset) ∧
    ([] ++ (6 : Byte) :: 1 :: 0 :: [] : List Byte).length = 3 * (1 : Byte).toNat ∧
    ([0, 1, 2] ++ (5 : Byte) :: 2 :: 0 :: [] : List Byte).length = 3 * (2 : Byte).toNat ∧
    (∀ body, State.reset.takes (decodeCommand 0x60 1 body) State.reset) :=
  ⟨takes_now _ _ rfl rfl rfl, by decide, by decide, takes_now _ _ rfl rfl rfl, by decide, takes_now _ _ rfl rfl rfl,
    by decide, by decide, fun _ => takes_now _ _ rfl rfl rfl, by decide, fun _ => takes_now _ _ rfl rfl rfl, by decide,
    by decide, fun _ => takes_now _ _ rfl rfl rfl⟩

/-- Reports of priorities 1, 2 and 2, and one answer waiting on each answer lane. -/
def lanesReady : State :=
  { State.reset with
    reports := { State.reset.reports with queue := [⟨.stalled 0, 0, 1⟩, ⟨.stalled 1, 0, 2⟩, ⟨.stalled 2, 0, 2⟩] }
    ingest := ⟨[(1, .drop 0 .stalled)], none⟩
    playout := ⟨[(1, ⟨0, 0, none, .idle, 0⟩)], none⟩ }

theorem witness_LanesSendInOrder :
    floodedPort.port.replies = overloadReply :: List.replicate 7 overloadReply ∧
    lanesReady.resetAsserted = false ∧ lanesReady.port.replies = [] ∧
    lanesReady.reports.queue = [⟨.stalled 0, 0, 1⟩] ++ ⟨.stalled 1, 0, 2⟩ :: [⟨.stalled 2, 0, 2⟩] ∧
    (∀ q ∈ ([⟨.stalled 0, 0, 1⟩] : List Report), q.priority < 2) ∧
    (∀ q ∈ ([⟨.stalled 2, 0, 2⟩] : List Report), q.priority ≤ 2) ∧
    State.reset.reports.queue = [] ∧ lanesReady.ingest.waiting = [(1, .drop 0 .stalled)] ∧
    lanesReady.playout.waiting = [(1, ⟨0, 0, none, .idle, 0⟩)] ∧ State.reset.ingest.waiting = [] ∧
    lanesReady.port.sending = none ∧ lanesReady.startLanes.port.sending ≠ none ∧ lanesReady.ingest.sending = none ∧
    lanesReady.startLanes.ingest.sending ≠ none ∧ lanesReady.startLanes.playout.sending ≠ none ∧
    (lanesReady.panel 3).sending = none := by decide

/-- A report queue that holds 64, the youngest of the lowest priority in the middle. -/
def fullQueue : State :=
  { State.reset with reports := { State.reset.reports with
      queue := List.replicate 13 ⟨.appended 0 0 .complete 1, 0, 0⟩ ++ ⟨.appended 1 0 .complete 2, 0, 0⟩ ::
        List.replicate 50 ⟨.pushed 0 0 0 0, 0, 2⟩ } }

theorem witness_ReportsAndFaultsRecorded :
    State.reset.reports.settings[(classIndex ReportClass.train).val] = ⟨true, 2⟩ ∧
    State.reset.reports.settings[(classIndex ReportClass.runlog).val] = ⟨true, 0⟩ ∧
    (after (.setReports 1 (.fields [⟨.train, false, 0⟩])) State.reset).reports.settings[3] = ⟨false, 0⟩ ∧
    fullQueue.reports.queue.length = 64 ∧
    (∀ q ∈ List.replicate 13 (⟨.appended 0 0 .complete 1, 0, 0⟩ : Report), 0 ≤ q.priority) ∧
    (∀ q ∈ List.replicate 50 (⟨.pushed 0 0 0 0, 0, 2⟩ : Report), 0 < q.priority) :=
  ⟨by decide, by decide, by decide, by decide, by simp, by simp⟩

/-- Train 0 IDLE on pool 100 to 105, train 1 RECORDING on pool 200 to 203, and a lock on extent 105. -/
def pools : State :=
  { State.reset with
    trains := (State.reset.trains.set 0 { State.reset.train 0 with
      state := .idle, pool := some ⟨100, 6⟩, cursor := some 105, firstFrame := true }).set 1 { State.reset.train 0 with
      state := .recording, pool := some ⟨200, 4⟩, cursor := some 203 }
    locks := [(105, 1)] }

theorem witness_ConfigureTrainChecked :
    (∀ i, pools.takes i pools) ∧ (4096 : Nat) < (4093 : Half).toNat + (4 : Half).toNat ∧
    (pools.train 1).state = .recording ∧
    (∃ y q e, y ≠ (0 : TrainId) ∧ (pools.train y).state ≠ .unconfigured ∧ (pools.train y).pool = some q ∧
      q.contains e = true ∧ (197 : Half).toNat ≤ e ∧ e < (197 : Half).toNat + (4 : Half).toNat) ∧
    (pools.train 0).state = .idle ∧
    (∃ q e, (pools.train 0).pool = some q ∧ q.contains e = true ∧ 0 < lockCount pools.locks e) ∧
    (∀ y : TrainId, ((pools.train y).pool.all fun q => decide (0 < q.count)) = true) :=
  ⟨fun _ => takes_now _ _ rfl rfl rfl, by decide, by decide,
    ⟨1, ⟨200, 4⟩, 200, by decide, by decide, by decide, by decide, by decide, by decide⟩, by decide,
    ⟨⟨100, 6⟩, 105, by decide, by decide, by decide⟩, by decide⟩

/-- The two trains without the lock. -/
def unlockedPools : State := { pools with locks := [] }

theorem witness_ConfigureTrainAccepted :
    (∀ i, unlockedPools.takes i unlockedPools) ∧ unlockedPools.tableLaw ∧ (unlockedPools.train 0).state = .idle ∧
    (∀ e, lockCount unlockedPools.locks e = 0) ∧
    (∀ y q, y ≠ (0 : TrainId) → (unlockedPools.train y).pool = some q → q.first + q.count ≤ (4092 : Half).toNat) ∧
    (∀ i, State.reset.takes i State.reset) ∧ State.reset.tableLaw ∧ (4092 : Half).toNat + (4 : Half).toNat = 4096 ∧
    (1 : Byte).toNat ∈ [1, 2, 3, 4, 6, 8] ∧ (State.reset.train 0).state = .unconfigured ∧
    (∀ y : TrainId, (State.reset.train y).pool = none) := by
  refine ⟨fun _ => takes_now _ _ rfl rfl rfl, ?_, by decide, fun _ => rfl, ?_, fun _ => takes_now _ _ rfl rfl rfl, ?_,
    by decide⟩
  · unfold State.tableLaw
    decide
  · have h : ∀ y, y ≠ (0 : TrainId) → ((unlockedPools.train y).pool.all fun q => decide (q.first + q.count ≤ 4092)) =
        true := by decide
    intro y q hy hq
    have := h y hy
    simpa [hq] using this
  · unfold State.tableLaw
    decide

theorem witness_ReleaseAndStopTrain :
    (∀ i, pools.takes i pools) ∧ (∀ i, unlockedPools.takes i unlockedPools) ∧
    (pools.train 2).state = .unconfigured ∧ (pools.train 1).state = .recording ∧ (stalled.train 5).state = .stalled ∧
    (pools.train 0).state = .idle ∧ (pools.train 0).pool = some ⟨100, 6⟩ ∧ 0 < lockCount pools.locks 105 ∧
    unlockedPools.tableLaw ∧ (∀ e, lockCount unlockedPools.locks e = 0) := by
  refine ⟨fun _ => takes_now _ _ rfl rfl rfl, fun _ => takes_now _ _ rfl rfl rfl, by decide, by decide, by decide,
    by decide, by decide, by decide, ?_, fun _ => rfl⟩
  unfold State.tableLaw
  decide

/-- Train 0 IDLE with a current extent at this fill. -/
def stopped (fill : Nat) : State :=
  { State.reset with trains := State.reset.trains.set 0 { State.reset.train 0 with
      state := .idle, pool := some ⟨0, 4⟩, cursor := some 0, chain := [⟨0, 0, fill⟩], serialCounter := fill } }

/-- Train 0 IDLE after its first lap: the search finds extent 1, which is retained. -/
def lapped (fill : Nat) : State :=
  { State.reset with trains := State.reset.trains.set 0 { State.reset.train 0 with
      state := .idle, pool := some ⟨0, 4⟩, cursor := some 0, serialCounter := 192 + fill
      chain := [⟨1, 0, 64⟩, ⟨2, 64, 64⟩, ⟨3, 128, 64⟩, ⟨0, 192, fill⟩] } }

theorem witness_StartTrain :
    (∀ n i, (lapped n).takes i (lapped n)) ∧ ((lapped 64).train 0).candidate [] = some 1 ∧
    ((lapped 63).train 0).candidate [] = some 1 ∧ ((lapped 63).train 0).current = some ⟨0, 192, 63⟩ ∧
    (⟨1, 0, 64⟩ : ChainEntry) ∈ ((lapped 63).train 0).chain ∧ (16 : Nat) ≤ (16 : Byte).toNat ∧
    (∀ n i, (stopped n).takes i (stopped n)) ∧ ((stopped 47).train 0).current = some ⟨0, 0, 47⟩ ∧
    ((stopped 48).train 0).candidate [] = some 1 ∧ ((stopped 64).train 0).candidate [] = some 1 ∧
    ((stopped 64).train 0).current = some ⟨0, 0, 64⟩ ∧
    ((stopped 64).train 0).candidate [(1, 1), (2, 1), (3, 1)] = none ∧
    ((stopped 48).train 0).candidate [(1, 1), (2, 1), (3, 1)] = none ∧
    (((stopped 64).train 0).chain.all fun d => d.extent != 1) = true :=
  ⟨fun _ _ => takes_now _ _ rfl rfl rfl, by decide, by decide, by decide, by decide, by decide,
    fun _ _ => takes_now _ _ rfl rfl rfl, by decide⟩

/-- Train 0 recording, a frame in flight on page 10 of its current extent. -/
def inFlight : State :=
  { State.reset with trains := State.reset.trains.set 0 { State.reset.train 0 with
      state := .recording, pool := some ⟨0, 4⟩, cursor := some 0, chain := [⟨0, 0, 10⟩], serialCounter := 10
      inFlight := some ⟨10, 10, ⟨0, 0, 0, 10, 0⟩⟩, firstFrame := true } }

theorem witness_FrameOpen :
    (16 : Nat) ≤ (16 : Byte).toNat ∧ (State.reset.train 15).state = .unconfigured ∧
    (inFlight.train 0).state = .recording ∧ (inFlight.train 0).current = some ⟨0, 0, 10⟩ ∧
    (stalled.train 5).state = .stalled ∧ (stalled.train 5).candidate [(20, 1), (21, 1), (22, 1)] = none ∧
    (stalled.train 5).serialCounter ≠ 4294967295 := by decide

theorem witness_StallsAndExtentChanges :
    (stalled.train 5).candidate stalled.locks = some 21 ∧ (⟨21, 64, 64⟩ : ChainEntry) ∈ (stalled.train 5).chain ∧
    (stalled.train 5).serialCounter ≠ 4294967295 ∧
    (stalled.train 5).state = .stalled ∧
    (({ stalled with trains := stalled.trains.set 5 { stalled.train 5 with
      pool := some ⟨20, 5⟩ } } : State).train 5).candidate stalled.locks = some 24 ∧
    ((stalled.train 5).chain.all fun d => d.extent != 24) = true ∧
    (stalled.train 5).current = some ⟨23, 192, 64⟩ ∧ (stalled.train 5).reserved = none ∧
    (({ stalled with trains := stalled.trains.set 5 { stalled.train 5 with
      reserved := some 24 } } : State).train 5).reserved = some 24 := by decide

/-- The same train with the frame expected, and not the first. -/
def nextFrame : State :=
  { inFlight with
    trains := inFlight.trains.set 0 { inFlight.train 0 with firstFrame := false }
    maps := inFlight.maps.set 0 { anchors := [⟨0, 0, 0⟩], lastLabel := some ⟨9, 0⟩ } }

/-- Train 0 recording after its first lap, a frame in flight on the page that follows a fill. -/
def filling (fill : Nat) (reserved : Option Nat) : State :=
  { State.reset with
    trains := State.reset.trains.set 0 { (lapped fill).train 0 with
      state := .recording, inFlight := some ⟨fill, 192 + fill, ⟨0, 0, 0, 10, 0⟩⟩, reserved := reserved }
    maps := State.reset.maps.set 0 { anchors := (List.range 128).map fun i => ⟨i, 0, 0⟩, lastLabel := none } }

set_option maxRecDepth 4000 in
theorem witness_FrameDone_points :
    ((filling 47 none).train 0).chain = [⟨1, 0, 64⟩, ⟨2, 64, 64⟩, ⟨3, 128, 64⟩] ++ [⟨0, 192, 47⟩] ∧
    ((filling 47 none).train 0).reserved = none ∧ ((filling 62 none).train 0).candidate [] = some 1 ∧
    ((filling 47 none).train 0).candidate [(1, 1), (2, 1), (3, 1)] = none ∧
    ((filling 63 (some 1)).train 0).reserved = some 1 ∧ ((filling 63 none).train 0).reserved = none ∧
    ((filling 63 none).map 0).anchors.length = 128 ∧
    ((filling 63 none).train 0).inFlight = some ⟨63, 255, ⟨0, 0, 0, 10, 0⟩⟩ := by decide

theorem witness_FrameDone :
    (inFlight.train 0).inFlight = some ⟨10, 10, ⟨0, 0, 0, 10, 0⟩⟩ ∧ (inFlight.train 0).chain = [] ++ [⟨0, 0, 10⟩] ∧
    (inFlight.train 0).firstFrame = true ∧ (nextFrame.map 0).lastLabel = some ⟨9, 0⟩ ∧
    nextFrame.timebase.receive 1 ⟨0, 0, 0, 10, 0⟩ = (nextFrame.timebase.advance 1 ⟨9, 0⟩, false) ∧
    (nextFrame.timebase.receive 1 ⟨0, 0, 0, 50, 0⟩).2 = true ∧ (State.reset.train 0).inFlight = none := by decide

theorem witness_RingSearch :
    (stalled.train 5).pool = some ⟨20, 4⟩ ∧ (stalled.train 5).cursor = some 23 ∧
    (⟨20, 4⟩ : Pool).contains 23 = true ∧ (stalled.train 5).candidate stalled.locks = some 21 := by decide

/-- A head on the frames of extent 21 and a clip on those of extent 20. -/
def reclaimReady : State :=
  let s := placed .cued (.train 5) (70 * 1200) stalled
  { s with
    maps := s.maps.set 5 { anchors := [⟨0, 0, 0⟩, ⟨70, 9, 0⟩], lastLabel := none }
    clips := [{ clip5 with angles := [⟨5, 10, 20, true, false, false⟩], primary := 0 }] }

theorem reclaimReady_chainLaw : (reclaimReady.train 5).chainLaw := by
  have hcur : (reclaimReady.train 5).current = some ⟨23, 192, 64⟩ := by decide
  exact ⟨by decide, by decide, by decide, of_some hcur (by decide), by decide, of_some hcur rfl⟩

theorem reclaimReady_tableLaw : reclaimReady.tableLaw := by
  unfold State.tableLaw
  decide

theorem witness_ReclaimEffects :
    (reclaimReady.train 5).chainLaw ∧
    (reclaimReady.train 5).chain = [⟨20, 0, 64⟩] ++ ⟨21, 64, 64⟩ :: ⟨22, 128, 64⟩ :: [⟨23, 192, 64⟩] ∧
    (reclaimReady.channel 0).source = .train 5 ∧
    64 ≤ (reclaimReady.channel 0).head / 1200 ∧ (reclaimReady.channel 0).head / 1200 ≤ 127 ∧
    ((reclaimReady.channel 1).source ≠ .train 5) ∧ (reclaimReady.map 5).anchors = [⟨0, 0, 0⟩, ⟨70, 9, 0⟩] ∧
    (placed .cued (.train 5) (63 * 1200) stalled |>.channel 0).head / 1200 = 63 :=
  ⟨reclaimReady_chainLaw, by decide⟩

/-- The same train with clip 5 on it: angle 0 below the range, angle 1 begun in it, angle 2 ended in it, angle 3 wholly
in it and angle 4 over it; channel B plays angle 3. -/
def clipsReclaimed : State :=
  let k : Clip := { clip5 with
    primary := 0
    angles := [⟨5, 10, 20, true, false, false⟩, ⟨5, 100, 150, true, false, false⟩, ⟨5, 20, 90, true, false, false⟩,
      ⟨5, 64, 127, true, false, false⟩, ⟨5, 10, 200, true, false, false⟩] }
  let s : State := { reclaimReady with clips := [k] }
  s.setChannel 1 { s.channel 1 with state := .playing, source := .clip 5 3, head := 64 * 1200 }

theorem witness_ReclaimReachesClips :
    (clipsReclaimed.train 5).chainLaw ∧ clipsReclaimed.tableLaw ∧ clipsReclaimed.runLog.entries.length ≤ 256 ∧
    (clipsReclaimed.train 5).chain = [⟨20, 0, 64⟩] ++ ⟨21, 64, 64⟩ :: ⟨22, 128, 64⟩ :: [⟨23, 192, 64⟩] ∧
    (clipsReclaimed.clipOf 5).map (·.lock) = some .unlocked ∧
    ((clipsReclaimed.reclaim 5 ⟨21, 64, 64⟩).clipOf 5).map (·.angles) =
      some [⟨5, 10, 20, true, false, false⟩, ⟨5, 128, 150, true, false, true⟩, ⟨5, 20, 63, true, false, true⟩,
        ⟨5, 64, 127, false, false, false⟩, ⟨5, 10, 200, true, true, false⟩] ∧
    ((clipsReclaimed.reclaim 5 ⟨21, 64, 64⟩).channel 1).source = .train 5 ∧
    reported (clipsReclaimed.reclaim 5 ⟨21, 64, 64⟩) =
      [.trimmed 5 5 (.serials 64 127) .partialClip [(1, .case2), (2, .case3), (3, .case1), (4, .case4)],
        .pushed 0 5 70 128, .stateChanged 1 .playing .cued ⟨.train 5, some 5⟩ 128 .angleLoss] := by
  refine ⟨reclaimReady_chainLaw, ?_, by decide⟩
  unfold State.tableLaw
  decide

theorem witness_TimebaseAndAnchors :
    (∀ i, State.reset.takes i State.reset) ∧ (30 : Byte).toNat ∈ [24, 25, 30, 48, 50, 60] ∧
    (∀ x, (State.reset.train x).state = .unconfigured) ∧ (pools.train 0).state ≠ .unconfigured ∧
    (∀ i, pools.takes i pools) ∧ (127 : Byte).toNat ≤ 127 :=
  ⟨fun _ => takes_now _ _ rfl rfl rfl, by decide, by decide, by decide, fun _ => takes_now _ _ rfl rfl rfl, by decide⟩

theorem witness_LabelsAndNumbersAgree :
    Timebase.valid ⟨60, true⟩ = true ∧ 0 < Timebase.day ⟨60, true⟩ ∧
    Timebase.labelValid ⟨60, true⟩ ⟨0, 1, 0, 4⟩ = true ∧ Timebase.labelValid ⟨60, true⟩ ⟨0, 1, 0, 3⟩ = false ∧
    Timebase.valid ⟨25, false⟩ = true ∧ Timebase.labelValid ⟨25, false⟩ (labelOf ⟨0, 0, 3, 24, 1⟩) = true ∧
    Timebase.labelValid ⟨25, false⟩ (labelOf ⟨0, 0, 3, 25, 0⟩) = false ∧ (2 : Nat) ≤ (2 : Byte).toNat := by decide

/-- R34's example at 25, a carry past hour 23, a carry that lands on a dropped label, and the minute row. -/
theorem test_repair :
    Timebase.repair ⟨25, false⟩ ⟨0, 0, 3, 25⟩ = ⟨0, 0, 4, 0⟩ ∧
    Timebase.repair ⟨25, false⟩ ⟨23, 59, 59, 25⟩ = ⟨0, 0, 0, 0⟩ ∧
    Timebase.repair ⟨30, true⟩ ⟨0, 0, 59, 30⟩ = ⟨0, 1, 0, 2⟩ ∧
    Timebase.repair ⟨25, false⟩ ⟨7, 60, 0, 3⟩ = ⟨8, 0, 0, 0⟩ := by decide

theorem witness_LookupsAgree :
    let t := holding .recording 3 30000 30500
    timecodeOf ⟨50, false⟩ t (anchored 30000 1800000 0) 30301 = .found ⟨1800100, 1⟩ ∧ t.retained 30501 = false ∧
    timecodeOf ⟨50, false⟩ t (anchored 30001 1800000 0) 30000 = .untimed ∧
    serialOf ⟨50, false⟩ t (anchored 30000 1800000 0) 1800100 1 = some 30301 ∧
    ((anchored 30000 1800000 0).anchors.map (·.serial)).Pairwise (· < ·) ∧
    (anchored 30000 1800000 0).anchors = [] ++ ⟨30000, 1800000, 0⟩ :: [] ∧ t.recordEdge = some 30500 ∧
    ((30301 : Nat) : Int) =
      (30000 : Nat) + (((1800100 : Nat) : Int) - (1800000 : Nat)) % (Timebase.day ⟨50, false⟩ : Nat) * (3 : Nat) +
        (1 : Nat) - (0 : Nat) ∧
    serialOf ⟨50, false⟩ t (anchored 30000 1800000 0) 1700000 0 = none := by decide

/-- Channel A in a state on train 4 of the cameras, at serial 30,360. -/
def onTrain (st : TransportState) : State := placed st (.train 4) 36432000 cameras

/-- Channel B FOLLOWING channel A on train 0. -/
def following : State :=
  let s := onTrain .playing
  let s := s.setChannel 0 { s.channel 0 with role := .leader }
  s.setChannel 1 { s.channel 1 with
    state := .following, source := .train 0, head := 12620 * 1200, role := .follower .tracking }

/-- Every fixture takes a command at once. -/
theorem fixtures_take (i : Instr) :
    State.reset.takes i State.reset ∧ (∀ st, (onTrain st).takes i (onTrain st)) ∧ following.takes i following ∧
    clipped.takes i clipped ∧ playingClip.takes i playingClip ∧ marked.takes i marked ∧
    liveOnTrain.takes i liveOnTrain ∧ lockReady.takes i lockReady ∧ queuePlay.takes i queuePlay ∧
    leverReady.takes i leverReady :=
  by refine ⟨?_, fun _ => ?_, ?_, ?_, ?_, ?_, ?_, ?_, ?_, ?_⟩ <;> exact takes_now _ _ rfl rfl rfl

theorem witness_HeadsMapped :
    (4 : TrainId) ≠ 0 ∧ 0 < ((onTrain .playing).train 4).multiple ∧ 0 < ((onTrain .playing).train 0).multiple ∧
    timecodeOf (onTrain .playing).timebase ((onTrain .playing).train 4) ((onTrain .playing).map 4) (36432000 / 1200) =
      .found ⟨1800120, 0⟩ ∧
    serialOf (onTrain .playing).timebase ((onTrain .playing).train 0) ((onTrain .playing).map 0) 1800120 0 =
      some 12620 ∧
    (onTrain .playing).mapHead 4 0 36432000 = .found (12620 * 1200) ∧
    (onTrain .playing).mapHead 4 1 36432000 = .notFound ∧
    ({ onTrain .playing with maps := State.reset.maps } : State).mapHead 4 0 36432000 = .untimed := by decide

theorem witness_ChannelChecks :
    State.reset.takes (.unload 1 (.fields 6)) State.reset ∧ (6 : Nat) ≤ (6 : Byte).toNat ∧
    following.takes (.loadClip 1 (.fields ⟨1, 1023, some 7⟩)) following ∧ (1 : Byte).toNat = (1 : ChannelId).val ∧
    (following.channel 1).state = .following ∧ (15 : Byte).toNat < 16 ∧ (1023 : Half).toNat < 1024 ∧
    (7 : Byte).toNat < 8 ∧ (1000 : Word).toNat ≤ 1000 ∧
    following.timebase.labelValid (labelOf ⟨10, 0, 2, 0, 1⟩) = true :=
  ⟨(fixtures_take _).1, by decide, (fixtures_take _).2.2.1, by decide⟩

/-- Clip 5 with its primary angle gone. -/
def partClip : State :=
  { clipped with clips := [{ clip5 with
      state := .partialClip, angles := clip5.angles.set 1 ⟨4, 30301, 30452, false, false, false⟩ }] }

theorem witness_LoadSelectAndUnload :
    clipped.takes (.loadClip 1 (.fields ⟨0, 5, none⟩)) clipped ∧ clipped.clipOf 5 = some clip5 ∧
    (1024 : Nat) ≤ (1024 : Half).toNat ∧ (8 : Nat) ≤ (8 : Byte).toNat ∧
    clip5.angles[clip5.primary]? = some ⟨4, 30301, 30452, true, false, false⟩ ∧ clipped.clipOf 1023 = none ∧
    (clipped.channel 0).state ≠ .following ∧
    (partClip.angleOf 5 1).map (·.present) = some false ∧ partClip.takes (.loadClip 1 (.fields ⟨0, 5, none⟩)) partClip :=
  ⟨(fixtures_take _).2.2.2.1, by decide, by decide, by decide, by decide, by decide, by decide, by decide,
    takes_now _ _ rfl rfl rfl⟩

theorem witness_LoadSelectAndUnload_select :
    (onTrain .cued).takes (.selectTrain 1 (.fields ⟨0, 0⟩)) (onTrain .cued) ∧ (16 : Nat) ≤ (16 : Byte).toNat ∧
    (cameras.train 0).recordEdge = some 12700 ∧ (cameras.train 0).oldestEdge = some 12000 ∧
    (cameras.train 1).recordEdge = none ∧ (State.reset.channel 0).state = .idle ∧
    ((onTrain .cued).channel 0).state ≠ .live ∧ ((onTrain .live).channel 0).state = .live ∧
    (onTrain .cued).mapHead 4 0 36432000 = .found (12620 * 1200) ∧ (onTrain .cued).mapHead 4 1 36432000 = .notFound :=
  ⟨(fixtures_take _).2.1 _, by decide⟩

theorem witness_PlaySpeedAndPause :
    (∀ st i, (onTrain st).takes i (onTrain st)) ∧
    State.reset.takes (.play 1 (.fields ⟨0, some 0x80000000⟩)) State.reset ∧
    ((onTrain .cued).channel 0).state = .cued ∧ (queuePlay.queue 0).playing = true ∧
    (queuePlay.queue 0).entries = ⟨20, none, some 600⟩ :: [⟨22, none, none⟩] ∧
    (playingClip.channel 0).source = .clip 5 1 ∧ (playingClip.channel 0).bounce = none ∧
    (playingClip.channel 0).state = .playing ∧ (playingClip.queue 0).playing = false ∧
    (playingClip.queue 0).session = some (freshSession 5 4) ∧ (clipped.angleOf 5 1).isSome = true ∧
    ((onTrain .jog).channel 0).state = .jog ∧
    ((onTrain .shuttle).channel 0).state ∈ [.playing, .shuttle, .jog, .live] ∧ (State.reset.channel 5).state = .idle ∧
    (5 : Byte).toNat = (5 : ChannelId).val :=
  ⟨fun _ i => (fixtures_take i).2.1 _, (fixtures_take _).1, by decide⟩

theorem witness_GotoAndLive :
    (∀ i, (onTrain .playing).takes i (onTrain .playing)) ∧
    (onTrain .playing).bounds (.train 4) = some (30000, 30500) ∧
    (onTrain .playing).timebase.labelValid (labelOf ⟨10, 0, 2, 0, 1⟩) = true ∧
    (onTrain .playing).timebase.labelValid (labelOf ⟨24, 0, 0, 0, 0⟩) = false ∧
    (onTrain .playing).sourceTrain (.train 4) = some 4 ∧ (2 : Byte).toNat < ((onTrain .playing).train 4).multiple ∧
    ((onTrain .playing).train 4).multiple ≤ (3 : Byte).toNat ∧
    (onTrain .playing).serialAt 4 1800100 1 = some 30301 ∧ (onTrain .playing).serialAt 4 1700000 0 = none ∧
    ((onTrain .live).channel 0).state = .live ∧ (1000 : Word).toNat ≤ 1000 ∧ (1000 : Nat) < (1001 : Word).toNat ∧
    ((onTrain .playing).train 4).oldestEdge = some 30000 ∧ ((onTrain .playing).train 4).recordEdge = some 30500 ∧
    ((onTrain .playing).channel 0).state ≠ .following ∧ (State.reset.channel 0).state = .idle ∧
    State.reset.timebase.labelValid (labelOf ⟨10, 0, 2, 0, 1⟩) = true :=
  ⟨fun i => (fixtures_take i).2.1 _, by decide⟩

theorem witness_ChannelSettings :
    (∀ i, State.reset.takes i State.reset) ∧ (1 : Word).toInt = 1 ∧ (38400 : Word).toInt = 38400 ∧
    (0xFFFFFFFF : Word).toInt < 1 ∧ (15 : Byte).toNat = (15 : Fin 16).val ∧ (16 : Nat) ≤ (16 : Byte).toNat ∧
    ([0, 15, 7] : List Byte).map (·.toNat) = ([0, 15, 7] : List TrainId).map (·.val) ∧
    ([0, 15, 7] : List TrainId).Nodup ∧ ¬([3, 3] : List Byte).Nodup :=
  ⟨fun i => (fixtures_take i).1, by decide⟩

theorem witness_StateChangesReported :
    ((onTrain .shuttle).channel 0).state ≠ ((onTrain .cued).channel 0).state ∧
    ((onTrain .cued).channel 0).source = ((onTrain .shuttle).channel 0).source ∧
    (onTrain .playing).reports.settings[(classIndex .transport).val].enabled = true ∧
    exec (.pause 1 (.fields 0)) (onTrain .playing) = .next (after (.pause 1 (.fields 0)) (onTrain .playing)) ∧
    ((after (.pause 1 (.fields 0)) (onTrain .playing)).channel 0).state = .cued := ⟨by decide, by decide, by decide, rfl,
  by decide⟩

theorem witness_AngleAndAngleNext :
    playingClip.takes (.angle 1 (.fields ⟨0, 2⟩)) playingClip ∧ (playingClip.channel 0).source = .clip 5 1 ∧
    playingClip.angleOf 5 1 = some ⟨4, 30301, 30452, true, false, false⟩ ∧
    playingClip.angleOf 5 2 = some ⟨8, 61802, 62105, true, false, false⟩ ∧
    playingClip.mapHead 4 8 36432000 = .found (61920 * 1200) ∧ playingClip.angleOf 5 7 = none ∧
    playingClip.mapHead 4 0 (30500 * 1200) = .found (12666 * 1200 + 800) ∧
    playingClip.mapHead 4 11 36432000 = .notFound ∧
    ({ playingClip with maps := State.reset.maps } : State).mapHead 4 8 36432000 = .untimed ∧
    ((onTrain .cued).channel 0).source = .train 4 :=
  ⟨(fixtures_take _).2.2.2.2.1, by decide⟩

/-- Channel A on train 11, which its angle group 0, 4, 8 does not hold. -/
def offGroup : State :=
  let s := placed .cued (.train 11) (7000 * 1200) cameras
  s.setChannel 0 { s.channel 0 with angleGroup := [0, 4, 8] }

theorem witness_AngleAndAngleNext_next :
    playingClip.takes (.angleNext 1 (.fields 0)) playingClip ∧ playingClip.clipOf 5 = some clip5 ∧
    ((List.range (clip5.angles.length - 1)).map fun j => (1 + 1 + j) % clip5.angles.length) = [] ++ 2 :: [0] ∧
    playingClip.mapHead 4 8 36432000 = .found (61920 * 1200) ∧
    (11 : TrainId) ∉ (offGroup.channel 0).angleGroup ∧ offGroup.takes (.angleNext 1 (.fields 0)) offGroup ∧
    offGroup.mapHead 11 0 (7000 * 1200) = .found (12500 * 1200) ∧ (offGroup.train 0).recordEdge = some 12700 ∧
    (marked.channel 0).angleGroup = [0] ++ 4 :: [11, 8] ∧ (cameras.channel 0).angleGroup = [] :=
  ⟨(fixtures_take _).2.2.2.2.1, by decide, by decide, by decide, by decide, takes_now _ _ rfl rfl rfl, by decide⟩

theorem witness_GangAndUngang :
    (onTrain .playing).takes (.gang 1 (.fields ⟨0, 0⟩)) (onTrain .playing) ∧
    ((0, 1) : ChannelId × ChannelId) ∈ [(0, 1), (2, 3), (4, 5)] ∧ (5 : ChannelId) ∈ ([1, 3, 5] : List ChannelId) ∧
    ((onTrain .playing).train 0).recordEdge = some 12700 ∧
    (onTrain .playing).mapFrom 0 0 = .ok (12620 * 1200) ∧ (onTrain .idle).mapFrom 0 0 = .error .leaderIdle ∧
    (onTrain .playing).mapFrom 1 0 = .error .leaderIdle ∧ (cameras.train 1).recordEdge = none ∧
    following.takes (.ungang 1 (.fields 1)) following ∧ (following.channel 0).role = .leader ∧
    (following.channel 1).role = .follower .tracking ∧ (following.channel 1).state = .following ∧
    (State.reset.channel 0).role ≠ .leader ∧
    (onTrain .playing).runLog.entries.length ≤ 256 :=
  ⟨(fixtures_take _).2.1 _, by decide, by decide, by decide, by decide, by decide, by decide, by decide,
    (fixtures_take _).2.2.1, by decide⟩

theorem witness_BindAndPanelSettings :
    leverReady.takes (.bind 1 (.fields ⟨3, 0⟩)) leverReady ∧ leverReady.tableLaw ∧ (3 : Byte).toNat = (3 : PanelId).val ∧
    (leverReady.panel 1).binding = some 0 ∧ (leverReady.panel 3).binding = none ∧
    (leverReady.channel 0).state ≠ .following ∧ (4 : Nat) ≤ (4 : Byte).toNat ∧
    following.takes (.bind 1 (.fields ⟨3, 1⟩)) following ∧ (6 : Nat) ≤ (6 : Byte).toNat ∧ (6 : Byte) ≠ 0xFF := by
  refine ⟨(fixtures_take _).2.2.2.2.2.2.2.2.2, ?_, by decide, by decide, by decide, by decide, by decide,
    (fixtures_take _).2.2.1, by decide, by decide⟩
  unfold State.tableLaw
  decide

theorem witness_BindAndPanelSettings_curve :
    State.reset.takes (.setCurve 1 (.fields ⟨3, [⟨0, 0⟩, ⟨1000, 38400⟩]⟩)) State.reset ∧
    (([⟨0, 0⟩, ⟨1000, 38400⟩] : List CurvePointField).map fun q => (q.lever.toInt, q.speed.toInt)) =
      [(0, 0), (1000, 38400)] ∧
    ([(0, 0), (1000, 38400)] : List (Int × Int)).Pairwise (fun m n => m.1 < n.1 ∧ m.2 ≤ n.2) ∧
    (50 : Word).toNat = 50 ∧ (2000 : Word).toNat = 2000 ∧ (2000 : Nat) < (2001 : Word).toNat ∧
    defaultCurve = [⟨0, 0⟩, ⟨40, 0⟩] ++ ⟨400, 600⟩ :: ⟨700, 1200⟩ :: [⟨900, 4800⟩, ⟨1000, 12000⟩] ∧
    defaultCurve.Pairwise (fun m n => m.lever < n.lever ∧ m.speed ≤ n.speed) ∧
    defaultCurve.head? = some ⟨0, 0⟩ :=
  ⟨(fixtures_take _).1, by decide⟩

/-- The panel of channel A with its arm in a state and the channel in another, the last record 251 ms ago. -/
def panelOn (arm : ArmState) (st : TransportState) : State :=
  let s := placed st (.train 0) 14520000 cameras
  { s.setPanel 1 { s.panel 1 with binding := some 0, arm := arm } with time := 251 }

theorem witness_PanelRecords :
    (panelOn .armed .cued).resetAsserted = false ∧ ((panelOn .armed .cued).panel 1).binding = some 0 ∧
    (State.reset.panel 1).binding = none ∧ leverSpeed defaultCurve 1000 = 12000 ∧ leverSpeed defaultCurve 40 = 0 ∧
    leverSpeed defaultCurve 43 = 5 ∧ ((panelOn .disarmed .cued).panel 1).arm ≠ .armed ∧
    ((panelOn .armed .shuttle).channel 0).state = .shuttle ∧ ((panelOn .armed .idle).channel 0).state = .idle ∧
    ((panelOn .armed .playing).channel 0).state ∈ [.cued, .playing, .jog, .live] ∧ (0x80 : Byte) ≠ 0x7F ∧
    ((panelOn .armed .jog).channel 0).state = .jog ∧
    ((panelOn .armed .shuttle).panel 1).silence < elapsed 251 0 ∧ elapsed 250 0 ≤ 250 ∧
    ((panelOn .lost .shuttle).panel 1).arm = .lost ∧
    ((panelOn .armed .cued).queue 0).session = none := by decide

theorem witness_Keys :
    leverReady.resetAsserted = false ∧ (leverReady.panel 1).binding = some 0 ∧ (leverReady.channel 0).state = .cued ∧
    (State.reset.panel 0).binding = none ∧ (10 : Nat) ≤ (10 : Byte).toNat ∧ (9 : Byte).toNat < 10 ∧
    leverReady.bounds (.train 0) = some (12000, 12700) ∧
    ((panelOn .armed .following).channel 0).state = .following ∧ (queuePlay.queue 0).playing = true ∧
    (queuePlay.setPanel 1 { queuePlay.panel 1 with binding := some 0 }).resetAsserted = false ∧
    (leverReady.channel 0).markIn = none ∧ (marked.channel 0).markIn = some ⟨4, 30301, 1800100, 1⟩ ∧
    marked.sourceTrain (marked.channel 0).source = some 4 ∧
    marked.serialAt 0 1800100 (1 * 1200 * 1 / 3 / 1200) = some 12600 := by decide

/-- Channel A having shown a frame with and without a timecode, and black. -/
def shown (frame : Option FrameShown) : State :=
  State.reset.setChannel 0 { State.reset.channel 0 with lastPresent := some ⟨0, 1, frame, .idle, 0⟩ }

theorem witness_Marks :
    (∀ f i, (shown f).takes i (shown f)) ∧
    ((shown none).channel 0).lastPresent.bind (·.frame) = none ∧
    ((shown (some ⟨0, none, 0, 4, 30301, none⟩)).channel 0).lastPresent =
      some ⟨0, 1, some ⟨0, none, 0, 4, 30301, none⟩, .idle, 0⟩ ∧
    ((shown (some ⟨0, none, 0, 4, 30301, some ⟨⟨10, 0, 2, 0⟩, 1⟩⟩)).channel 0).lastPresent =
      some ⟨0, 1, some ⟨0, none, 0, 4, 30301, some ⟨⟨10, 0, 2, 0⟩, 1⟩⟩, .idle, 0⟩ :=
  ⟨fun _ _ => takes_now _ _ rfl rfl rfl, by decide⟩

theorem witness_ClearMarks :
    marked.takes (.clearMarks 1 (.fields 0)) marked ∧ State.reset.takes (.clearMarks 1 (.fields 6)) State.reset ∧
    (0 : Byte).toNat = (0 : ChannelId).val ∧ (6 : Nat) ≤ (6 : Byte).toNat ∧ (State.reset.channel 0).markIn = none ∧
    (State.reset.channel 0).markOut = none :=
  ⟨(fixtures_take _).2.2.2.2.2.1, (fixtures_take _).1, by decide⟩

/-- The in mark alone, on a channel that has shown nothing. -/
def halfMarked : State := marked.setChannel 0 { marked.channel 0 with markOut := none }

theorem witness_Take :
    marked.takes (.take 1 (.fields 0)) marked ∧ halfMarked.takes (.take 1 (.fields 0)) halfMarked ∧
    (marked.channel 0).markIn = some ⟨4, 30301, 1800100, 1⟩ ∧
    (marked.channel 0).markOut = some ⟨4, 30452, 1800150, 2⟩ ∧ (halfMarked.channel 0).markOut = none ∧
    (halfMarked.channel 0).lastPresent = none ∧ marked.clipOf 5 = none ∧ 5 / 64 = (marked.channel 0).targetBank.val ∧
    (∀ j, j < 5 → (marked.clipOf j).isSome = true) ∧ marked.clips.length < 1024 ∧
    marked.serialAt 0 1800100 (1 * 1 / 3) = some 12600 ∧
    marked.serialAt 0 1800150 (((2 + 1) * 1 + 3 - 1) / 3 - 1) = some 12650 ∧
    marked.serialAt 11 1800100 (1 * 2 / 3) = none ∧ (State.reset.channel 0).markIn = none :=
  ⟨(fixtures_take _).2.2.2.2.2.1, takes_now _ _ rfl rfl rfl, by decide⟩

/-- Table 6-6, second take: the marks of a stretch that runs the wrong way round midnight yield nothing. -/
theorem witness_Take_refused :
    let s : State := { State.reset with
      trains := State.reset.trains.set 0 (holding .idle 1 100000 100200)
      maps := State.reset.maps.set 0 (anchored 100000 4319900 0) }
    let t := s.setChannel 0 { s.channel 0 with
      source := .train 0, state := .cued, markIn := some ⟨0, 100120, 20, 0⟩
      markOut := some ⟨0, 100090, 4319990, 0⟩ }
    t.instantOf ⟨0, 100120, 20, 0⟩ = 480 ∧ t.instantOf ⟨0, 100090, 4319990, 0⟩ = 103679760 ∧
      answer (after (.take 1 (.fields 0)) t) = some (.notFound, .empty) := by decide

theorem witness_ClipChecks :
    clipped.takes (.lockClip 1 (.fields 1024)) clipped ∧ (1024 : Nat) ≤ (1024 : Half).toNat ∧
    (1023 : Half).toNat < 1024 ∧ clipped.clipOf 1023 = none ∧ (7 : Byte).toNat < 8 ∧ (8 : Nat) ≤ (8 : Byte).toNat ∧
    (∀ x ∈ ([32, 126] : List Byte), 32 ≤ x.toNat ∧ x.toNat ≤ 126) ∧ (127 : Byte) ∈ ([127] : List Byte) ∧
    (0 : Word).toInt < 1 ∧ (38400 : Int) < (38401 : Word).toInt ∧ (38400 : Word).toInt = 38400 ∧ (16 : Nat) ≤ (16 : Byte).toNat ∧
    (63 : Nat) < (64 : Byte).toNat :=
  ⟨(fixtures_take _).2.2.2.1, by decide⟩

/-- The locked clip of Table 7-4, its reply sent. -/
def lockHeld : State := after .controlRecordSent (after (.lockClip 1 (.fields 70)) lockReady)

/-- Clip 70 when it is LOST. -/
def clipLost : State :=
  { lockReady with clips := lockReady.clips.map fun k => { k with
      state := .lost, angles := k.angles.map fun g => { g with present := false } } }

theorem witness_LocksAndTrims :
    (∀ i, lockReady.takes i lockReady) ∧ (∀ i, lockHeld.takes i lockHeld) ∧ (∀ i, clipLost.takes i clipLost) ∧
    lockReady.tableLaw ∧ lockHeld.tableLaw ∧ (lockReady.clipOf 70).map (·.lock) = some .unlocked ∧
    (lockHeld.clipOf 70).map (·.lock) = some .held ∧ (clipLost.clipOf 70).map (·.state) = some .lost ∧
    (lockHeld.train 6).retained 1088 = true ∧ (lockHeld.train 6).retained 1120 = true ∧
    (lockHeld.train 6).retained 1024 = false ∧ (lockHeld.angleOf 70 0).map (·.present) = some true ∧
    (clipLost.angleOf 70 0).map (·.present) = some false := by
  refine ⟨fun i => (fixtures_take i).2.2.2.2.2.2.2.1, fun _ => takes_now _ _ rfl rfl rfl,
    fun _ => takes_now _ _ rfl rfl rfl, ?_, ?_, by decide, by decide, by decide, by decide, by decide, by decide,
    by decide, by decide⟩ <;> unfold State.tableLaw <;> decide

/-- Bank 1 of Table 7-5 with bank 0 guarded, and a channel in queue play on clip 64. -/
def bankOne : State :=
  let clip := fun (id : Nat) (lock : ClipLock) => ({ clip5 with id := id, lock := lock } : Clip)
  let s := placed .playing (.clip 64 1) 36432000 { clipped with
    clips := [clip5, clip 64 .unlocked, clip 65 .held, clip 70 .unlocked, clip 71 .unlocked]
    guards := State.reset.guards.set 0 true }
  s.setQueue 0 ⟨[⟨64, none, none⟩, ⟨71, none, none⟩, ⟨64, none, none⟩], true, some (freshSession 64 4)⟩

/-- Section 7.9: CLEAR_BANK 1, and CLEAR_ALL after it. -/
theorem test_clearBank :
    let t := after (.clearBank 1 (.fields 1)) bankOne
    answer t = some (.ok, .bankCleared 2 2 1) ∧ t.clips.map (·.id) = [5, 64, 65] ∧
      t.runLog.entries = [⟨0, 71, 4, .skippedDeleted, none, none, 0⟩] ∧
      (t.queue 0).entries = [⟨64, none, none⟩, ⟨64, none, none⟩] := by decide

theorem witness_ClipsRemoved :
    (∀ i, bankOne.takes i bankOne) ∧ bankOne.tableLaw ∧ (bankOne.clipOf 65).map (·.lock) = some .held ∧
    (bankOne.clipOf 64).map (·.lock) = some .unlocked ∧ (bankOne.channel 0).source = .clip 64 1 ∧
    (bankOne.clipOf 71).map (·.lock) = some .unlocked ∧ (∀ c, bankOne.usedBy 71 c = false) ∧
    bankOne.runLog.entries.length ≤ 256 ∧ bankOne.guards[0] = true ∧ bankOne.guards[1] = false ∧
    (1 : Byte).toNat = (1 : Fin 16).val := by
  refine ⟨fun _ => takes_now _ _ rfl rfl rfl, ?_, by decide⟩
  unfold State.tableLaw
  decide

theorem witness_ClipEditsAndQueries :
    (∀ i, playingClip.takes i playingClip) ∧ playingClip.clipOf 5 = some clip5 ∧
    (15 : Byte).toNat = (15 : Fin 16).val ∧ (List.replicate 16 (126 : Byte)).length ≤ 16 ∧
    (∀ x ∈ List.replicate 16 (126 : Byte), 32 ≤ x.toNat ∧ x.toNat ≤ 126) ∧ (3 : Byte).toNat ≤ 3 ∧
    (38400 : Word).toInt ≤ 38400 ∧ 1 ≤ (1 : Word).toInt ∧ (63 : Byte).toNat ≤ 63 ∧
    (playingClip.channel 0).source = .clip 5 1 ∧ (0 : Byte).toNat = (0 : Fin 16).val :=
  ⟨fun i => (fixtures_take i).2.2.2.2.1, by decide⟩

/-- A queue of 32 entries. -/
def longQueue : State :=
  queuePlay.setQueue 0 { queuePlay.queue 0 with entries := List.replicate 32 ⟨22, none, none⟩ }

theorem witness_QueueEditing :
    (∀ i, queuePlay.takes i queuePlay) ∧ (∀ i, longQueue.takes i longQueue) ∧ (1023 : Half).toNat < 1024 ∧
    (longQueue.queue 0).entries.length = 32 ∧ (queuePlay.queue 0).entries.length = 2 ∧
    (2 : Byte).toNat ≤ (queuePlay.queue 0).entries.length ∧ (31 : Byte).toNat ≤ 31 ∧ (32 : Nat) ≤ (32 : Byte).toNat ∧
    (queuePlay.clipOf 22).map (·.state) = some .valid ∧ (queuePlay.angleOf 22 0).map (·.present) = some true ∧
    queuePlay.clipOf 23 = none ∧ (State.reset.queue 0).playing = false ∧ (queuePlay.queue 0).playing = true :=
  ⟨fun i => (fixtures_take i).2.2.2.2.2.2.2.2.1, fun _ => takes_now _ _ rfl rfl rfl, by decide⟩

/-- The queue of Table 9-3 outside queue play, and one whose entry names no clip. -/
def queueWaiting : State := queuePlay.setQueue 0 { queuePlay.queue 0 with playing := false }
def queueLost : State := queuePlay.setQueue 0 { queuePlay.queue 0 with entries := [⟨23, none, none⟩] }

theorem witness_QueueLoads :
    (∀ i, queuePlay.takes i queuePlay) ∧ (∀ i, queueWaiting.takes i queueWaiting) ∧
    (∀ i, queueLost.takes i queueLost) ∧ (queuePlay.channel 0).state ≠ .following ∧
    queuePlay.runLog.entries.length ≤ 256 ∧ (queuePlay.queue 0).playing = true ∧
    (queuePlay.queue 0).entries.drop 1 = [] ++ [⟨22, none, none⟩] ∧
    queuePlay.loads ⟨22, none, none⟩ 0 ⟨3, 800, 839, true, false, false⟩ ∧
    (∀ n g, ¬queueLost.loads ⟨23, none, none⟩ n g) ∧
    (queueWaiting.queue 0).entries = [] ++ [⟨20, none, some 600⟩, ⟨22, none, none⟩] ∧
    (queueWaiting.queue 0).playing = false ∧ (queueLost.queue 0).entries = [⟨23, none, none⟩] ++ [] ∧
    queueLost.clipOf 23 = none ∧ (State.reset.queue 0).entries = [] ∧ (queueLost.queue 0).entries.drop 1 = [] ++ [] :=
  ⟨fun i => (fixtures_take i).2.2.2.2.2.2.2.2.1, fun _ => takes_now _ _ rfl rfl rfl,
    fun _ => takes_now _ _ rfl rfl rfl, by decide, by decide, by decide, by decide,
    ⟨_, rfl, by decide, rfl, rfl, rfl⟩, (by rintro _ _ ⟨_, h, _⟩; cases h), by decide⟩

theorem witness_RunLogReadAndFlushed :
    State.reset.takes (.readRunlog 1 (.fields 8)) State.reset ∧
    State.reset.takes (.flushRunlog 1 (.fields ())) State.reset ∧ (8 : Byte).toNat ≤ 8 ∧ 1 ≤ (1 : Byte).toNat ∧
    (8 : Nat) < (9 : Byte).toNat ∧ (0 : Byte).toNat < 1 :=
  ⟨(fixtures_take _).1, (fixtures_take _).1, by decide⟩

theorem witness_ReportSettingsAndStatus :
    (∀ i, State.reset.takes i State.reset) ∧
    (([⟨.clip, true, 3⟩, ⟨.fault, false, 0⟩] : List ReportSettingField).map (·.cls)).Nodup ∧
    ¬(([⟨.clip, true, 3⟩, ⟨.clip, false, 0⟩] : List ReportSettingField).map (·.cls)).Nodup ∧ (3 : Byte).toNat ≤ 3 ∧
    (15 : Byte).toNat < 16 ∧ (16 : Nat) ≤ (16 : Byte).toNat ∧ (5 : Byte).toNat < 6 ∧ (6 : Nat) ≤ (6 : Byte).toNat :=
  ⟨fun i => (fixtures_take i).1, by decide⟩

theorem witness_FaultsAndAlarm :
    (∀ i, alarmed.takes i alarmed) ∧ alarmed.alarm.hold = some ⟨0, 500⟩ ∧ laterTime 500 alarmed.time = true ∧
    laterTime 500 500 = false ∧ alarmed.alarm.line = .asserted ∧ State.reset.alarm.hold = none ∧
    State.reset.alarm.line ≠ .asserted ∧ (63 : Byte).toNat < 64 ∧ (100 : Word).toNat = 100 ∧
    (5000 : Word).toNat = 5000 ∧ (64 : Nat) ≤ (64 : Byte).toNat :=
  ⟨fun _ => takes_now _ _ rfl rfl rfl, by decide⟩

/-- A request one ahead of the last served. -/
theorem advances_one {s : State} {c : ChannelId} {m : Nat} (h : (s.channel c).lastServed = some m)
    (hm : m < 4294967295) : s.advances c (m + 1) 1 s :=
  .inr ⟨m, 1, h, by omega, by decide, (Nat.mod_eq_of_lt (by omega)).symm, .inl ⟨by decide, rfl, rfl⟩⟩

/-- Channel A PLAYING clip 40 of Table 3-6 short of the hole, at speed 2400. -/
def beforeHole : State := overHole.setChannel 0 { overHole.channel 0 with head := 2440000 }

/-- Clip 40 with the hole reaching to its out point, at 2112. -/
def holeToBound (st : TransportState) (head : Nat) (speed : Int) : State :=
  let s : State :=
    { overHole with clips := overHole.clips.map fun k => { k with angles := [⟨4, 2000, 2112, true, true, false⟩] } }
  s.setChannel 0 { s.channel 0 with state := st, head := head, speed := speed, target := speed }

theorem witness_HeadsPlaced :
    liveOnTrain.advances 0 1 1 liveOnTrain ∧ (liveOnTrain.channel 0).source = .train 4 ∧
    liveOnTrain.bounds (.train 4) = some (30000, 30500) ∧ liveOnTrain.roomLeft 0 ∧
    (liveOnTrain.channel 0).liveDelay = 0 ∧
    (liveOnTrain.train 4).settles 30000 30500 (30500 * 1200) 1200 (30500 * 1200) none ∧
    (liveOnTrain.train 4).retained 30500 = true ∧
    following.advances 1 1 1 following ∧ (following.channel 1).state = .following ∧
    (following.channel 1).role = .follower .tracking ∧ followerOf 0 = some 1 ∧ following.roomLeft 1 ∧
    following.bounds (.train 0) = some (12000, 12700) ∧ following.sourceTrain (following.channel 0).source = some 4 ∧
    following.mapHead 4 0 (following.channel 0).head = .found (12620 * 1200) ∧
    ((onTrain .idle).channel 0).state = .idle ∧
    ({ following with maps := State.reset.maps } : State).mapHead 4 0 (following.channel 0).head = .untimed := by
  refine ⟨.inl ⟨by decide, rfl, rfl⟩, by decide, by decide, of_none (by decide), by decide,
    ⟨30500, ⟨fun _ => by decide, fun h => absurd h (by decide)⟩, fun _ => .inl ⟨by decide, rfl⟩,
      fun h => absurd h (by decide), fun h => absurd h (by decide)⟩,
    by decide, .inl ⟨by decide, rfl, rfl⟩, by decide, by decide, by decide, of_none (by decide), by decide⟩

/-- Channel A in JOG on train 4 with 3 counts back. -/
def jogging : State := (onTrain .jog).setChannel 0 { (onTrain .jog).channel 0 with jogAcc := -3 }

/-- A head inside the bounds on a retained frame is not displaced. -/
theorem not_leftOff {s : State} {c : ChannelId} {x : TrainId} {lo hi : Nat}
    (h : (s.train x).retained ((s.channel c).head / 1200) = true) (hlo : lo * 1200 ≤ (s.channel c).head)
    (hhi : (s.channel c).head ≤ hi * 1200) : ¬s.leftOff c x lo hi := by
  rintro (⟨-, -, h'⟩ | ⟨-, h' | h'⟩)
  · exact Bool.noConfusion (h.symm.trans h')
  · omega
  · omega

theorem witness_JogsAndHoles :
    (jogging.channel 0).state = .jog ∧ jogging.bounds (.train 4) = some (30000, 30500) ∧
    (jogging.channel 0).speed = 0 ∧ (jogging.channel 0).target = 0 ∧ jogging.runLog.entries.length ≤ 256 ∧
    clampedHead 30000 30500 ((((jogging.channel 0).head / 1200 : Nat) + (jogging.channel 0).jogAcc) * 1200) =
      30357 * 1200 ∧
    (jogging.train 4).lands (30357 * 1200) (30357 * 1200) 30000 none ∧
    (jogging.train 4).snapsBackward 30000 30357 30000 ∧
    overHole.bounds (.clip 40 0) = some (2000, 2200) ∧ ¬overHole.leftOff 0 4 2000 2200 ∧
    overHole.moves 0 4 2000 2200 (2112 * 1200) (some (2048, 2112)) none ∧
    (∀ q, (overHole.panel q).arm ≠ .lost) ∧
    (overHole.setChannel 0 { overHole.channel 0 with head := 2640001 }).leftOff 0 4 2000 2200 ∧
    (overHole.setChannel 0 { overHole.channel 0 with head := 2100 * 1200 }).leftOff 0 4 2000 2200 := by
  refine ⟨by decide, by decide, by decide, by decide, by decide, by decide,
    ⟨fun _ => by decide, fun h => absurd h (by decide)⟩, .inl ⟨by decide, rfl⟩, by decide,
    not_leftOff (by decide) (by decide) (by decide),
    ⟨2112, ⟨fun h => absurd h (by decide), fun _ => by decide⟩, fun _ => ?_, fun h => absurd h (by decide), by decide,
      by decide⟩, by decide, .inr ⟨⟨40, 0, by decide⟩, .inl (by decide)⟩,
    .inl ⟨by decide, by decide, by decide⟩⟩
  exact .inr ⟨[⟨300, 1984, 64⟩], ⟨302, 2112, 64⟩, [⟨303, 2176, 64⟩], by decide⟩

theorem witness_FrameRequestServed :
    (6 : Nat) ≤ (6 : Byte).toNat ∧ State.reset.advances 0 7 1 State.reset ∧ (State.reset.channel 0).state = .idle ∧
    (State.reset.queue 0).session = none ∧ overHole.advances 0 5001 0 overHole ∧
    overHole.advances 0 5009 8 overHole ∧
    overHole.advances 0 5010 1 (overHole.recordFault .playoutGap (some 0)) ∧
    beforeHole.sourceTrain (.clip 40 0) = some 4 ∧ beforeHole.bounds (.clip 40 0) = some (2000, 2200) ∧
    (beforeHole.train 4).settles 2000 2200 2440000 2400 2440000 none ∧
    (beforeHole.train 4).retained (2440000 / 1200) = true ∧ beforeHole.roomLeft 0 ∧
    beforeHole.advances 0 5003 2 beforeHole ∧ (beforeHole.channel 0).rampedFrom 2400 = 2400 ∧
    (∀ j, j < 2 → (beforeHole.train 4).retained ((2440000 + 2400 * (j + 1)) / 1200) = true ∧
      2440000 + 2400 * (j + 1) < 2200 * 1200) ∧
    (∀ q, ((onTrain .shuttle).panel q).arm ≠ .lost) ∧ ¬beforeHole.leftOff 0 4 2000 2200 ∧
    (overHole.setChannel 0 { overHole.channel 0 with head := 2640001 }).leftOff 0 4 2000 2200 ∧
    (overHole.train 4).settles 2000 2200 2640001 2400 2640000 none ∧ (overHole.train 4).retained 2200 = true := by
  refine ⟨by decide, .inl ⟨rfl, rfl, rfl⟩, by decide, by decide,
    .inr ⟨5001, 0, by decide, by decide, by decide, by decide, .inl ⟨by decide, rfl, rfl⟩⟩,
    .inr ⟨5001, 8, by decide, by decide, by decide, by decide, .inl ⟨by decide, rfl, rfl⟩⟩,
    .inr ⟨5001, 9, by decide, by decide, by decide, by decide, .inr ⟨by decide, rfl, rfl⟩⟩, by decide, by decide,
    ⟨2112, ?_, fun _ => ?_, ?_, ?_⟩, by decide, of_some (a := freshSession 40 4) (by decide) (by decide),
    .inr ⟨5001, 2, by decide, by decide, by decide, by decide, .inl ⟨by decide, rfl, rfl⟩⟩, by decide, by decide,
    by decide, not_leftOff (by decide) (by decide) (by decide), .inr ⟨⟨40, 0, by decide⟩, .inl (by decide)⟩,
    ⟨2200, ⟨fun _ => by decide, fun h => absurd h (by decide)⟩, fun _ => .inl ⟨by decide, rfl⟩,
      fun h => absurd h (by decide), fun h => absurd h (by decide)⟩, by decide⟩
  · exact ⟨fun _ => by decide, fun h => absurd h (by decide)⟩
  · exact .inr ⟨[⟨300, 1984, 64⟩], ⟨302, 2112, 64⟩, [⟨303, 2176, 64⟩], by decide⟩
  · exact fun h => absurd h (by decide)
  · exact fun h => absurd h (by decide)

/-- The states the sub-steps of a request of this count go through on channel A. -/
def turns (s : State) (count : Nat) : Nat → State
  | 0 => s.setChannel 0 { s.channel 0 with lastServed := some count }
  | j + 1 =>
    let u := turns s count j
    if (u.channel 0).state ∈ [.cued, .playing, .shuttle, .jog] then u.subStep 0 count (decide (j = 0)) else u

theorem witness_SubStepsInTurn :
    overHole.advances 0 5003 2 overHole ∧ (overHole.channel 0).state ∈ [.cued, .playing, .shuttle, .jog] ∧
    (∀ j, turns overHole 5003 (j + 1) = if ((turns overHole 5003 j).channel 0).state ∈ [.cued, .playing, .shuttle, .jog]
      then (turns overHole 5003 j).subStep 0 5003 (decide (j = 0)) else turns overHole 5003 j) ∧
    (turns overHole 5003 2).bounds ((turns overHole 5003 2).channel 0).source = some (2000, 2200) ∧
    ((turns overHole 5003 2).channel 0).head = 2114 * 1200 ∧ (turns overHole 5003 2).roomLeft 0 ∧
    ((turns overHole 5003 2).train 4).settles 2000 2200 (2114 * 1200) 2400 (2114 * 1200) none ∧
    ((turns overHole 5003 2).train 4).retained 2114 = true ∧
    ((turns behindLive 4 1).channel 0).state = .live ∧ ((turns behindLive 4 1).channel 0).source = .train 7 := by
  refine ⟨.inr ⟨5001, 2, by decide, by decide, by decide, by decide, .inl ⟨by decide, rfl, rfl⟩⟩, by decide,
    fun _ => rfl, by decide, by decide, of_some (a := freshSession 40 4) (by decide) (by decide),
    ⟨2176, ⟨fun _ => by decide, fun h => absurd h (by decide)⟩, fun _ => ?_, fun h => absurd h (by decide),
      fun h => absurd h (by decide)⟩, by decide⟩
  exact .inr ⟨[⟨300, 1984, 64⟩, ⟨302, 2112, 64⟩], ⟨303, 2176, 64⟩, [], by decide⟩

/-- Channel A at a bound of clip 40, in a state at a speed, with an end action. -/
def atBound (st : TransportState) (head : Nat) (speed : Int) (action : EndAction) : State :=
  atOutPoint.setChannel 0 { atOutPoint.channel 0 with
    state := st, head := head, speed := speed, target := speed, endAction := action, bounce := some ⟨.forward, none⟩ }

theorem witness_BoundsReached :
    (∀ st h v e, (atBound st h v e).roomLeft 0) ∧
    atOutPoint.sourceTrain (atOutPoint.channel 0).source = some 4 ∧
    atOutPoint.bounds (atOutPoint.channel 0).source = some (2000, 2200) ∧ (atOutPoint.train 4).retained 2000 = true ∧
    (atOutPoint.train 4).retained 2200 = true ∧ (atOutPoint.channel 0).state = .playing ∧
    (atOutPoint.queue 0).playing = false ∧ atOutPoint.runLog.entries.length ≤ 256 ∧
    ¬(atBound .playing 2637600 2400 .stop).leftOff 0 4 2000 2200 ∧
    (atBound .playing 2637600 2400 .stop).moves 0 4 2000 2200 (2200 * 1200) none (some .forward) ∧
    (atBound .playing 2402400 (-2400) .loop).moves 0 4 2000 2200 (2000 * 1200) none (some .reverse) ∧
    ((atBound .playing 2402400 (-2400) .bounce).setQueue 0 ⟨[⟨40, none, none⟩], true, some (freshSession 40 4)⟩).moves 0 4 2000 2200
      (2000 * 1200) none (some .reverse) ∧
    (behindLive.channel 0).source = .train 7 ∧ behindLive.bounds (.train 7) = some (9984, 10000) ∧
    ¬behindLive.leftOff 0 7 9984 10000 ∧ behindLive.moves 0 7 9984 10000 (10000 * 1200) none (some .forward) ∧
    1200 ≤ (behindLive.channel 0).rampedFrom 1800 ∧ behindLive.roomLeft 0 ∧ (behindLive.train 7).retained 9984 = true ∧
    (behindLive.train 7).retained 10000 = true ∧
    (holeToBound .playing 2455200 2400).moves 0 4 2000 2112 (2112 * 1200) (some (2048, 2112)) (some .forward) := by
  refine ⟨fun _ _ _ _ => of_some (a := freshSession 40 4) rfl (by decide), by decide, by decide, by decide, by decide,
    by decide, by decide, by decide, not_leftOff (by decide) (by decide) (by decide),
    ⟨2200, ⟨fun _ => by decide, fun h => absurd h (by decide)⟩, fun _ => .inl ⟨by decide, by decide⟩,
      fun h => absurd h (by decide), by decide, by decide⟩,
    ⟨2000, ⟨fun _ => by decide, fun h => absurd h (by decide)⟩, fun h => absurd h (by decide), fun _ => ?_, by decide,
      by decide⟩,
    ⟨2000, ⟨fun _ => by decide, fun h => absurd h (by decide)⟩, fun h => absurd h (by decide), fun _ => ?_, by decide,
      by decide⟩, by decide, by decide, not_leftOff (by decide) (by decide) (by decide),
    ⟨10000, ⟨fun _ => by decide, fun h => absurd h (by decide)⟩, fun _ => .inl ⟨by decide, by decide⟩,
      fun h => absurd h (by decide), by decide, by decide⟩, by decide, of_none rfl, by decide, by decide,
    ⟨2112, ⟨fun h => absurd h (by decide), fun _ => by decide⟩, fun _ => ?_, fun h => absurd h (by decide), by decide,
      by decide⟩⟩
  · exact .inl ⟨by decide, by decide⟩
  · exact .inl ⟨by decide, by decide⟩
  · exact .inr ⟨[⟨300, 1984, 64⟩], ⟨302, 2112, 64⟩, [⟨303, 2176, 64⟩], by decide⟩

/-- Channel A in SHUTTLE on train 0 at 120, one ramp step from 0, its panel LOST. -/
def rampingDown : State :=
  let s := panelOn .lost .shuttle
  let s := s.setPanel 1 { s.panel 1 with arm := .lost, binding := some 0 }
  s.setChannel 0 { s.channel 0 with speed := 120, target := 0, lastServed := some 1037 }

theorem witness_HoldsBouncesAdvances :
    (atBound .shuttle 2637600 2400 .stop).moves 0 4 2000 2200 (2200 * 1200) none (some .forward) ∧
    ¬(atBound .shuttle 2637600 2400 .stop).leftOff 0 4 2000 2200 ∧
    ((atBound .shuttle 2637600 2400 .stop).channel 0).state = .shuttle ∧
    ((atBound .playing 2637600 2400 .bounce).channel 0).bounce = some ⟨.forward, none⟩ ∧
    ((atBound .playing 2637600 2400 .bounce).queue 0).playing = false ∧
    ((atBound .playing 2637600 2400 .next).channel 0).endAction = .next ∧
    ((atBound .playing 2637600 2400 .next).queue 0).entries = [] ++ [] ∧
    queuePlay.roomLeft 0 ∧ queuePlay.bounds (.clip 20 0) = some (500, 519) ∧ ¬queuePlay.leftOff 0 2 500 519 ∧
    queuePlay.moves 0 2 500 519 (519 * 1200) none (some .forward) ∧ (queuePlay.train 2).retained 500 = true ∧
    (queuePlay.train 2).retained 519 = true ∧ (queuePlay.queue 0).playing = true ∧
    (queuePlay.queue 0).entries.drop 1 = [] ++ [⟨22, none, none⟩] ∧
    queuePlay.loads ⟨22, none, none⟩ 0 ⟨3, 800, 839, true, false, false⟩ ∧ queuePlay.runLog.entries.length ≤ 256 ∧
    rampingDown.tableLaw ∧ (rampingDown.panel 1).binding = some 0 ∧ (rampingDown.panel 1).arm = .lost ∧
    (rampingDown.channel 0).rampedFrom 120 = 0 ∧ rampingDown.bounds (.train 0) = some (12000, 12700) ∧
    ¬rampingDown.leftOff 0 0 12000 12700 ∧ rampingDown.moves 0 0 12000 12700 14520000 none none ∧
    (rampingDown.train 0).retained 12000 = true ∧ (rampingDown.train 0).retained 12700 = true ∧
    rampingDown.roomLeft 0 := by
  refine ⟨⟨2200, ⟨fun _ => by decide, fun h => absurd h (by decide)⟩, fun _ => .inl ⟨by decide, by decide⟩,
      fun h => absurd h (by decide), by decide, by decide⟩, not_leftOff (by decide) (by decide) (by decide), by decide,
    by decide, by decide, by decide, by decide, of_some (a := ⟨20, 2, some 1001, some 1037, 37⟩) rfl (by decide),
    by decide, not_leftOff (by decide) (by decide) (by decide),
    ⟨519, ⟨fun _ => by decide, fun h => absurd h (by decide)⟩, fun _ => .inl ⟨by decide, by decide⟩,
      fun h => absurd h (by decide), by decide, by decide⟩, by decide, by decide, by decide, by decide,
    ⟨_, rfl, by decide, rfl, rfl, rfl⟩, by decide, ?_, by decide, by decide, by decide, by decide,
    not_leftOff (by decide) (by decide) (by decide),
    ⟨12700, ⟨fun _ => by decide, fun h => absurd h (by decide)⟩, fun _ => .inl ⟨by decide, by decide⟩,
      fun h => absurd h (by decide), by decide, by decide⟩, by decide, by decide, of_none rfl⟩
  unfold State.tableLaw
  decide

/-- At the out point a bounce without a count turns (R88), NEXT with nothing queued stops (R90), and SHUTTLE holds
(R83). -/
theorem test_bounds :
    let turn := after (.frameRequest 9 0 5046) (atBound .playing 2637600 2400 .bounce)
    let next := after (.frameRequest 9 0 5046) (atBound .playing 2637600 2400 .next)
    let held := after (.frameRequest 9 0 5046) (atBound .shuttle 2637600 2400 .stop)
    (turn.channel 0).speed = -1200 ∧ (turn.channel 0).bounce = some ⟨.reverse, none⟩ ∧
      (next.channel 0).state = .cued ∧ (held.channel 0).edgeHold = true ∧ (held.channel 0).speed = 0 := by decide

/-- Channel A in a state on clip 40 at speed 2400, its head put in the hole of Table 3-6 by a GOTO. -/
def inTheHole (st : TransportState) (speed : Int) : State :=
  overHole.setChannel 0 { overHole.channel 0 with
    state := st, head := 2100 * 1200, speed := speed, target := speed }

/-- Section 7.8: a trimmed clip's head lies beyond its bounds, and settling clamps it, whatever the number of sub-steps,
with no end action (R66). A head in a hole is snapped by settling before it steps on (R79). -/
theorem test_frameRequest_beyond :
    let t := after (.frameRequest 9 0 5046) (atBound .playing 2640001 2400 .stop)
    let t8 := after (.frameRequest 9 0 5053) (atBound .playing 2640001 2400 .stop)
    let low := after (.frameRequest 9 0 5046) (atBound .playing 2399999 2400 .stop)
    let hole := after (.frameRequest 9 0 5003) (inTheHole .playing 2400)
    (t.channel 0).state = .playing ∧ (t.channel 0).head = 2640000 ∧
      (t8.channel 0).state = .playing ∧ (t8.channel 0).head = 2640000 ∧ (low.channel 0).head = 2400000 ∧
      (hole.channel 0).head = 2112 * 1200 ∧ reported hole = [.holeSkipped 0 4 2100 2112] := by decide

/-- A snap that ends at the out point reaches it (R56); CUED in that hole, settling goes backward (R60, log 19). -/
theorem test_frameRequest_snap :
    let t := after (.frameRequest 9 0 5002) (holeToBound .playing 2455200 2400)
    let back := after (.frameRequest 9 0 5002) (holeToBound .cued (2100 * 1200) 0)
    (t.channel 0).state = .cued ∧ (t.channel 0).head = 2112 * 1200 ∧ t.runLog.entries.length = 1 ∧
      (back.channel 0).head = 2047 * 1200 := by decide

/-- The LOST panel's channel reaches speed 0 and is CUED (R109). -/
theorem test_rampDown :
    let t := after (.frameRequest 9 0 1038) rampingDown
    (t.channel 0).state = .cued ∧ (t.panel 1).arm = .disarmed := by decide

/-- A receiver of the ingest link that holds these bytes. -/
def holdingBytes (bs : List Byte) (last : Nat) : State :=
  { State.reset with time := 1 }.setReceiver .ingest ⟨receiverStateOf bs, bs, last⟩

/-- What stands after the start character of an attempt of 19 bytes whose CRC differs: an attempt of a bad length, one
whose CRC differs, a framed STOP_TRAIN, and the header of a further attempt. -/
def lostBytes : List Byte := [0, 19, 0xC5, 0, 1, 0xC5, 0, 2, 9, 9, 0, 0] ++ frame 0x13 5 [3] ++ [0xC5, 0, 9]

set_option maxRecDepth 8000 in
theorem witness_ReceiverBytes_again : Examined lostBytes [⟨0x13, 5, [3]⟩] .collect [0xC5, 0, 9] :=
  .badLength (pre := [0, 19]) (by decide) (by decide)
    (.badCrc (pre := [0, 1]) (l1 := 0) (l2 := 2) (content := [9, 9]) (by decide) (by decide) (by decide) (by decide)
      (by decide)
      (.taken (pre := [0, 2, 9, 9, 0, 0]) (by decide) (by decide)
        (.collecting (pre := []) (more := []) (by decide) (by decide) (by decide) (by decide))))

set_option maxRecDepth 8000 in
/-- The record behind three failed attempts is taken, and the attempt after it is held (R191). -/
theorem test_rescan :
    (match feed .control (0xC5 :: lostBytes) State.reset with
      | .next t => (t.port.waiting, t.receiver .control)
      | _ => ([], ⟨.hunt, [], 0⟩)) = ([.stopTrain 5 (.fields 3)], ⟨.collect, [0xC5, 0, 9], 0⟩) := by decide

set_option maxRecDepth 8000 in
theorem witness_ReceiverBytes :
    (State.reset.receiver .ingest).held = [] ∧ ((holdingBytes [0xC5] 0).receiver .ingest).held = [0xC5] ∧
    ((holdingBytes [0xC5, 0] 0).receiver .ingest).held = [0xC5, 0] ∧
    (0 : Byte).toNat * 256 + (252 : Byte).toNat = 252 ∧ (252 : Nat) < (0 : Byte).toNat * 256 + (253 : Byte).toNat ∧
    (0 : Byte).toNat * 256 + (2 : Byte).toNat = 2 ∧ (0 : Byte).toNat * 256 + (1 : Byte).toNat < 2 ∧
    ((holdingBytes [0xC5, 0, 2, 9] 0).receiver .ingest).held = 0xC5 :: 0 :: 2 :: [9] ∧
    ((holdingBytes [0xC5, 0, 2, 9, 9, 0] 0).receiver .ingest).held = 0xC5 :: 0 :: 2 :: ([9, 9] ++ [0]) ∧
    crc16 [0, 2, 9, 9] ≠ (0 : Byte) ++ (0 : Byte) ∧ crc16 [0, 2, 9, 9] = (0xC1 : Byte) ++ (0x11 : Byte) ∧
    ((holdingBytes [0xC5, 0, 2, 9] 0).receiver .ingest).state = .collect ∧ elapsed 1 0 = 1 ∧ elapsed 1 1 = 0 ∧
    (0xC5 : Byte) ∉ ([0, 2, 9] : List Byte) ∧
    ([0, 2, 9, 0xC5, 0] : List Byte) = [0, 2, 9] ++ 0xC5 :: [0] ∧
    0xC5 :: 0 :: 2 :: [9, 9, 0xC1, 0x11] = frame 9 9 [] ∧
    (State.reset.receiver .ingest).state = .hunt := by decide

theorem witness_FramedRecordTaken :
    State.reset.receiver .control = ⟨.hunt, [], 0⟩ ∧ State.reset.lanesRunning ∧
    (List.replicate 250 (0xC5 : Byte)).length ≤ 250 := by
  refine ⟨by decide, ?_, Nat.le_of_eq List.length_replicate⟩
  unfold State.lanesRunning
  decide

set_option maxRecDepth 8000 in
/-- A framed STOP_TRAIN arrives at the command port. -/
theorem test_receivedBytes :
    (match feed .control (frame 0x13 5 [3]) State.reset with
      | .next t => t.port.waiting
      | _ => []) = [.stopTrain 5 (.fields 3)] := by decide

/-! ## The laws, at a state that is not the reset state -/

theorem initial_chainLaw : Train.initial.chainLaw := by
  refine ⟨List.Pairwise.nil, ?_, ?_, of_none rfl, ?_, rfl⟩ <;> simp [Train.initial]

theorem inFlight_trainLaw : inFlight.trainLaw := by
  have hcur : (inFlight.train 0).current = some ⟨0, 0, 10⟩ := by decide
  refine ⟨fun x => ?_, ?_, ?_, ?_⟩
  · rcases Fin.eq_zero_or_eq_succ x with rfl | ⟨y, rfl⟩
    · refine ⟨List.pairwise_singleton _ _, by decide, by decide, of_some hcur (by decide), fun _ => by decide, ?_⟩
      exact ⟨_, hcur, by decide⟩
    · have h : inFlight.train y.succ = Train.initial := by revert y; decide
      rw [h]
      exact initial_chainLaw
  · decide
  · intro x
    rcases Fin.eq_zero_or_eq_succ x with rfl | ⟨y, rfl⟩
    · exact of_some (a := ⟨0, 4⟩) (by decide) (by decide)
    · exact of_none (by revert y; decide)
  · intro x y p q e hxy hp hq
    have h : ∀ y : TrainId, y ≠ 0 → (inFlight.train y).pool = none := by decide
    by_cases hx : x = 0
    · rw [h y (fun hy => hxy (hx.trans hy.symm))] at hq
      cases hq
    · rw [h x hx] at hp
      cases hp

theorem witness_TrainLawKept :
    inFlight.trainLaw ∧ step inFlight = .next { inFlight with time := 1 } := ⟨inFlight_trainLaw, rfl⟩

theorem witness_TableLawKept :
    bankOne.tableLaw ∧ step bankOne = .next { bankOne with time := 1 } := ⟨witness_ClipsRemoved.2.1, rfl⟩

theorem witness_GangLawKept :
    following.gangLaw ∧ step following = .next { following with time := 1 } := by
  refine ⟨⟨by decide, ?_⟩, rfl⟩
  intro l
  revert l
  decide

theorem witness_SpeedLawKept : playingClip.speedLaw := by
  refine ⟨by decide, fun k hk => ?_, fun c e he => ?_, by decide⟩
  · rw [List.mem_singleton.1 (hk : k ∈ [clip5])]
    exact ⟨of_none rfl, of_none rfl⟩
  · rw [(by decide : ∀ c, (playingClip.queue c).entries = []) c] at he
    cases he

theorem witness_BoundsKept_queue :
    queuePlay.queueLaw ∧ (queuePlay.queue 0).playing = true := by
  have h : ∀ c, (queuePlay.queue c).entries.length ≤ 32 ∧ ((queuePlay.queue c).playing = true → c = 0) := by decide
  exact ⟨fun c => ⟨(h c).1, fun p => (h c).2 p ▸ ⟨_, _, _, rfl, rfl⟩⟩, by decide⟩

theorem witness_BoundsKept :
    fullQueue.bounded ∧ following.lanesRunning ∧ following.speedsFit ∧ following.gangLaw ∧
    step following = .next { following with time := 1 } := by
  refine ⟨by decide, ?_, fun c => ?_, witness_GangLawKept⟩
  · unfold State.lanesRunning
    decide
  have h : ∀ c, (following.channel c).speed = 0 ∧ (following.channel c).target = 0 ∧
      (following.channel c).state ≠ .live := by decide
  unfold Channel.speedsFit
  split
  · trivial
  · trivial
  · exact absurd ‹_› (h c).2.2
  · exact ⟨(h c).1, (h c).2.1⟩

theorem witness_RingKeepsLockedExtents :
    ({ inFlight with locks := [(0, 1)] } : State).trainLaw ∧ ({ inFlight with locks := [(0, 1)] } : State).tableLaw ∧
    0 < lockCount [(0, 1)] 0 ∧ (⟨0, 0, 10⟩ : ChainEntry) ∈ (inFlight.train 0).chain ∧
    exec .holdEnd inFlight = .next inFlight := by
  refine ⟨inFlight_trainLaw, ?_, by decide, by decide, ?_⟩
  · unfold State.tableLaw
    decide
  · have h : inFlight.lanesRunning := by
      unfold State.lanesRunning
      decide
    exact congrArg Host.Outcome.next (startLanes_running h)

/-- The fault's report being sent. -/
def alarmSent : State := alarmed.startLanes

theorem witness_AlarmHeldWhileHoldRuns :
    exec .holdEnd alarmSent = .next alarmSent ∧ alarmSent.alarm.line ≠ .deasserted ∧
    alarmSent.alarm.running alarmSent.time = true :=
  ⟨congrArg Host.Outcome.next (startLanes_running (startLanes_lanesRunning alarmed)), by decide, by decide⟩

end Sys2Proof.Tests
end

