-- ==== Sys2Proof/Proofs/ConfigureTrain.lean ====
section
/-! Train numbers, pools and locked extents, and the checks of CONFIGURE_TRAIN (R7). -/

namespace Sys2Proof.Machine

/-! ## Train numbers and pools -/

/-- A byte with a train's number names that train. -/
theorem trainOf_eq_some {b : Byte} {x : TrainId} (h : b.toNat = x.val) : trainOf b = some x := by
  simp [trainOf, h]

theorem mem_allTrains (x : TrainId) : x ∈ allTrains := by
  revert x
  decide

theorem Pool.contains_iff (p : Pool) (e : Nat) : p.contains e = true ↔ p.first ≤ e ∧ e < p.first + p.count := by
  simp [Pool.contains]

theorem Pool.overlaps_of_contains {p q : Pool} {e : Nat} (hp : p.contains e = true) (hq : q.contains e = true) :
    p.overlaps q = true := by
  rw [Pool.contains_iff] at hp hq
  simp only [Pool.overlaps, decide_eq_true_eq]
  omega

/-- Of two pools that overlap and hold an extent each, the later first extent lies in both. -/
theorem Pool.contains_max_of_overlaps {p q : Pool} (h : p.overlaps q = true) (hp : 0 < p.count) (hq : 0 < q.count) :
    p.contains (max p.first q.first) = true ∧ q.contains (max p.first q.first) = true := by
  simp only [Pool.overlaps, decide_eq_true_eq] at h
  simp only [Pool.contains_iff]
  omega

theorem poolOverlaps_iff (s : State) (x : TrainId) (p : Pool) : s.poolOverlaps x p = true ↔
    ∃ y q, y ≠ x ∧ (s.train y).state ≠ .unconfigured ∧ (s.train y).pool = some q ∧ p.overlaps q = true := by
  simp only [State.poolOverlaps, List.any_eq_true]
  refine exists_congr fun y => ?_
  cases hpool : (s.train y).pool with
  | none => simp
  | some q => simp [mem_allTrains, and_assoc]

/-! ## Locked extents -/

/-- A lock count above 0 is one the list holds. -/
theorem mem_of_lockCount_pos {e : Nat} : ∀ {l : List (Nat × Nat)}, 0 < lockCount l e → (e, lockCount l e) ∈ l
  | [], h => absurd h (Nat.lt_irrefl 0)
  | (y, n) :: rest, h => by
    by_cases hy : y = e
    · simp [lockCount, hy]
    · simp only [lockCount, if_neg hy] at h ⊢
      exact List.mem_cons_of_mem _ (mem_of_lockCount_pos h)

theorem poolLocked_of_contains {s : State} {q : Pool} {e : Nat} (hq : q.contains e = true)
    (he : 0 < lockCount s.locks e) : s.poolLocked (some q) = true :=
  List.any_eq_true.mpr ⟨_, mem_of_lockCount_pos he, by simp [hq, he]⟩

/-! ## CONFIGURE_TRAIN -/

/-- The pool a CONFIGURE_TRAIN asks for. -/
def askedPool (a : ConfigureTrainArgs) : Pool := ⟨a.first.toNat, a.count.toNat⟩

/-- The values R7's first check refuses. -/
abbrev ConfigureValuesBad (a : ConfigureTrainArgs) : Prop :=
  a.multiple.toNat ∉ [1, 2, 3, 4, 6, 8] ∨ a.count.toNat < 4 ∨ 4096 < a.first.toNat + a.count.toNat

/-- R7's checks in their order, for a train field that names a train. -/
theorem configureTrain_eq {a : ConfigureTrainArgs} {x : TrainId} (s : State) (hx : a.train.toNat = x.val) :
    configureTrain a s =
      if ConfigureValuesBad a then .refuse .badValue
      else if (s.train x).state = .recording ∨ (s.train x).state = .stalled then .refuse .busy
      else if s.poolOverlaps x (askedPool a) then .refuse .overlap
      else if (s.train x).state = .idle ∧ s.poolLocked (s.train x).pool then .refuse .locked
      else .done ((s.discard x).setTrain x (configuredTrain (askedPool a) a.multiple.toNat)) .empty := by
  have values : (!multipleValid a.multiple.toNat || decide (a.count.toNat < 4) ||
      decide (4096 < a.first.toNat + a.count.toNat)) = true ↔ ConfigureValuesBad a := by
    simp only [multipleValid, Bool.or_eq_true, Bool.not_eq_true', decide_eq_false_iff_not, decide_eq_true_eq, or_assoc]
  unfold configureTrain
  rw [trainOf_eq_some hx]
  exact if_congr values rfl rfl

/-- The meaning of CONFIGURE_TRAIN: its row at the command port. -/
theorem exec_configureTrain (tag : Byte) (a : Sent ConfigureTrainArgs) (s : State) :
    exec (.configureTrain tag a) s = command (.configureTrain tag a) 0x10 tag a configureTrain s := rfl

/-- A CONFIGURE_TRAIN that the train manager refuses changes nothing but that its reply waits (R7, R180). -/
theorem turnedAway_of_configureTrain_refuse {tag : Byte} {a : ConfigureTrainArgs} {u s : State} {st : Status}
    (ht : u.takes (.configureTrain tag (.fields a)) s) (h : configureTrain a s = .refuse st) :
    TurnedAway (.configureTrain tag (.fields a)) 0x10 tag u s st := by
  unfold TurnedAway Leaves
  rw [exec_configureTrain, command_takes ht, h, conclude_refuse]

/-- The overlap check finds every shared extent. -/
theorem poolOverlaps_of_shared {a : ConfigureTrainArgs} {s : State} {x : TrainId}
    (h : ∃ y q e, y ≠ x ∧ (s.train y).state ≠ .unconfigured ∧ (s.train y).pool = some q ∧
      q.contains e = true ∧ a.first.toNat ≤ e ∧ e < a.first.toNat + a.count.toNat) :
    s.poolOverlaps x (askedPool a) = true := by
  obtain ⟨y, q, e, hne, hstate, hpool, hq, ha⟩ := h
  exact (poolOverlaps_iff ..).mpr
    ⟨y, q, hne, hstate, hpool, Pool.overlaps_of_contains ((Pool.contains_iff ..).mpr ha) hq⟩

/-- Where every pool holds an extent, the overlap check finds shared extents only. -/
theorem shared_of_poolOverlaps {a : ConfigureTrainArgs} {s : State} {x : TrainId} (ha : 0 < a.count.toNat)
    (hpos : ∀ y q, (s.train y).pool = some q → 0 < q.count) (h : s.poolOverlaps x (askedPool a) = true) :
    ∃ y q e, y ≠ x ∧ (s.train y).state ≠ .unconfigured ∧ (s.train y).pool = some q ∧
      q.contains e = true ∧ a.first.toNat ≤ e ∧ e < a.first.toNat + a.count.toNat := by
  obtain ⟨y, q, hne, hstate, hpool, hover⟩ := (poolOverlaps_iff ..).mp h
  obtain ⟨hp, hq⟩ := Pool.contains_max_of_overlaps hover ha (hpos y q hpool)
  exact ⟨y, q, _, hne, hstate, hpool, hq, (Pool.contains_iff ..).mp hp⟩

/-- Settles O9: each clause follows R7's checks down to the one that fails. -/
theorem configureTrainChecked : Obligations.ConfigureTrainChecked := by
  intro tag a x u s hx ht bad busy overlap locked
  have checks := configureTrain_eq s hx
  refine ⟨fun hbad => ?_, fun hbad hbusy => ?_, fun hbad hbusy hover => ?_,
    fun hbad hbusy hover hlocked hpos => ?_⟩ <;> refine turnedAway_of_configureTrain_refuse ht ?_
  · rw [checks, if_pos hbad]
  · rw [checks, if_neg hbad, if_pos hbusy]
  · rw [checks, if_neg hbad, if_neg hbusy, if_pos (poolOverlaps_of_shared hover)]
  · have count_pos : 0 < a.count.toNat := by
      by_contra hzero
      exact hbad (.inr (.inl (by omega)))
    have apart : ¬ s.poolOverlaps x (askedPool a) = true := fun h => hover (shared_of_poolOverlaps count_pos hpos h)
    obtain ⟨hidle, q, e, hpool, hq, he⟩ := hlocked
    have pool_locked : s.poolLocked (s.train x).pool = true := hpool ▸ poolLocked_of_contains hq he
    rw [checks, if_neg hbad, if_neg hbusy, if_neg apart, if_pos ⟨hidle, pool_locked⟩]

end Sys2Proof.Machine
end

section
/-! CLEAR_MARKS (R118), with what it shares with every command that carries a channel: the channel check of R71 and how
a verdict becomes an answer. -/

namespace Sys2Proof.Machine

/-! ## The channel check -/

/-- A byte with a channel's number names that channel. -/
theorem channelOf_eq_some {b : Byte} {c : ChannelId} (h : b.toNat = c.val) : channelOf b = some c := by
  simp [channelOf, h]

/-- A byte above F's number names no channel. -/
theorem channelOf_eq_none {b : Byte} (h : 6 ≤ b.toNat) : channelOf b = none := by
  simp [channelOf, h]

/-- The channel check passes a channel field that names a channel. -/
theorem onChannel_of_named {b : Byte} {c : ChannelId} (h : b.toNat = c.val) (f : ChannelId → State → Verdict)
    (s : State) : onChannel b f s = f c s := by
  unfold onChannel
  rw [channelOf_eq_some h]

/-- The channel check refuses a channel field that names none of A to F. -/
theorem onChannel_of_unnamed {b : Byte} (h : 6 ≤ b.toNat) (f : ChannelId → State → Verdict) (s : State) :
    onChannel b f s = .refuse .badValue := by
  unfold onChannel
  rw [channelOf_eq_none h]

/-! ## From a verdict to its answer -/

section answer

variable {α : Type} {i : Instr} {kind tag : Byte} {a : α} {f : α → State → Verdict} {u s : State}

/-- A command row whose block carries it out on s and leaves t is accepted with the block's body. -/
theorem accepted_of_done {t : State} {body : ReplyBody} (row : exec i u = command i kind tag (.fields a) f u)
    (ht : u.takes i s) (h : f a s = .done t body) : Accepted i kind tag u t body := by
  unfold Accepted Leaves
  rw [row, command_takes ht, h, conclude_done]

/-- A command row that its block refuses on s is turned away with the block's status. -/
theorem turnedAway_of_refuse {st : Status} (row : exec i u = command i kind tag (.fields a) f u)
    (ht : u.takes i s) (h : f a s = .refuse st) : TurnedAway i kind tag u s st := by
  unfold TurnedAway Leaves
  rw [row, command_takes ht, h, conclude_refuse]

end answer

/-! ## Writing a channel -/

/-- Writing a channel changes the channel records alone. -/
theorem setChannel_restore (s : State) (c : ChannelId) (ch : Channel) :
    { s.setChannel c ch with channels := s.channels } = s := rfl

/-- Writing back the record a channel has changes nothing. -/
@[simp] theorem setChannel_channel (s : State) (c : ChannelId) : s.setChannel c (s.channel c) = s := by
  simp [State.setChannel, State.channel]

/-! ## CLEAR_MARKS -/

/-- The meaning of CLEAR_MARKS: its row at the command port. -/
theorem exec_clearMarks (tag : Byte) (a : Sent Byte) (s : State) :
    exec (.clearMarks tag a) s = command (.clearMarks tag a) 0x42 tag a clearMarks s := rfl

/-- A channel record that holds no mark is as CLEAR_MARKS leaves it. -/
theorem Channel.clear_eq_self {ch : Channel} (hin : ch.markIn = none) (hout : ch.markOut = none) :
    { ch with markIn := none, markOut := none } = ch := by
  cases ch
  cases hin
  cases hout
  rfl

/-- CLEAR_MARKS on a channel field that names a channel is carried out in every state. -/
theorem clearMarks_of_named {b : Byte} {c : ChannelId} (h : b.toNat = c.val) (s : State) :
    clearMarks b s = .done (s.setChannel c { s.channel c with markIn := none, markOut := none })
      (.marksCleared (s.channel c).markIn.isSome (s.channel c).markOut.isSome) :=
  onChannel_of_named h clearMarksOn s

/-- Settles O35: the channel check refuses or passes the field, and what is carried out writes one channel's record.
(`Machine.clearMarks` is the model's block itself, so the theorem of that name stands one name deeper.) -/
theorem Settled.clearMarks : Obligations.ClearMarks := by
  intro tag b u s ht
  have row := exec_clearMarks tag (.fields b) u
  refine ⟨fun hb => turnedAway_of_refuse row ht (onChannel_of_unnamed hb clearMarksOn s), fun c hc => ?_⟩
  refine ⟨_, accepted_of_done row ht (clearMarks_of_named hc s), setChannel_channel_self .., fun d hd => ?_,
    setChannel_restore .., fun hin hout => ?_⟩
  · exact setChannel_channel_ne _ _ _ hd
  · rw [Channel.clear_eq_self hin hout, setChannel_channel]

end Sys2Proof.Machine
end

section
/-! READ_RUNLOG and FLUSH_RUNLOG (R176, R177). -/

namespace Sys2Proof.Machine

/-- The meaning of READ_RUNLOG: its row at the command port. -/
theorem exec_readRunlog (tag : Byte) (a : Sent Byte) (s : State) :
    exec (.readRunlog tag a) s = command (.readRunlog tag a) 0x5E tag a readRunlog s := rfl

/-- The meaning of FLUSH_RUNLOG: its row at the command port. -/
theorem exec_flushRunlog (tag : Byte) (a : Sent Unit) (s : State) :
    exec (.flushRunlog tag a) s = command (.flushRunlog tag a) 0x5F tag a flushRunlog s := rfl

/-- A count from 1 to 8 takes that many of the oldest entries and leaves the rest (R176). -/
theorem readRunlog_of_count {b : Byte} (low : 1 ≤ b.toNat) (high : b.toNat ≤ 8) (s : State) :
    readRunlog b s =
      .done { s with runLog := { s.runLog with entries := s.runLog.entries.drop b.toNat } }
        (.runLog (s.runLog.entries.take b.toNat) (s.runLog.entries.drop b.toNat).length s.runLog.overrun) :=
  if_pos ⟨low, high⟩

/-- A count outside 1 to 8 is refused in every state (R176). -/
theorem readRunlog_of_badCount {b : Byte} (h : b.toNat < 1 ∨ 8 < b.toNat) (s : State) :
    readRunlog b s = .refuse .badValue :=
  if_neg (by omega)

/-- FLUSH_RUNLOG is carried out in every state and writes the run log alone (R177). -/
theorem flushRunlog_eq (s : State) :
    flushRunlog () s =
      .done { s with runLog := { entries := [], overrun := false } } (.flushed s.runLog.entries.length) := rfl

/-- Settles O43: a read splits the log at the count, the oldest entries first, and a flush empties it. -/
theorem runLogReadAndFlushed : Obligations.RunLogReadAndFlushed := by
  refine ⟨fun tag b u s ht => ⟨fun hbad => ?_, fun low high => ?_⟩, fun tag u s ht => ?_⟩
  · exact turnedAway_of_refuse (exec_readRunlog ..) ht (readRunlog_of_badCount hbad s)
  · have split : s.runLog.entries = s.runLog.entries.take b.toNat ++ s.runLog.entries.drop b.toNat :=
      (List.take_append_drop ..).symm
    exact ⟨_, _, _, split, List.length_take, accepted_of_done (exec_readRunlog ..) ht (readRunlog_of_count low high s),
      rfl⟩
  · exact accepted_of_done (exec_flushRunlog ..) ht (flushRunlog_eq s)

end Sys2Proof.Machine
end

section
/-! The normal form of what happens to one channel: every operation of the transport, the queue unit and the playback
head leaves the state as it is but for one channel's record and queue, the arm state of the panel bound to it, and
notes made in order in the run log and the report queue. -/

namespace Sys2Proof.Machine

/-! ## Notes: reports raised and run log entries appended -/

/-- A report raised or a run log entry appended. -/
inductive Note where
  | report (b : ReportBody)
  | entry (e : RunEntry)

/-- A note made: the report raised (R182), or the entry appended with its RUNLOG/APPENDED (R175). -/
def State.note (s : State) : Note → State
  | .report b => s.raise b
  | .entry e => s.appendRun e

/-- Notes made in order. -/
def State.noted (s : State) (l : List Note) : State := l.foldl State.note s

@[simp] theorem noted_nil (s : State) : s.noted [] = s := rfl

@[simp] theorem noted_cons (s : State) (n : Note) (l : List Note) : s.noted (n :: l) = (s.note n).noted l := rfl

theorem noted_append (s : State) (l m : List Note) : s.noted (l ++ m) = (s.noted l).noted m :=
  List.foldl_append

theorem noted_reports (s : State) (bs : List ReportBody) : s.noted (bs.map .report) = bs.foldl State.raise s := by
  induction bs generalizing s with
  | nil => rfl
  | cons b rest ih => exact ih (s.raise b)

theorem note_eq (s : State) (n : Note) : ∃ l r, s.note n = { s with runLog := l, reports := r } := by
  cases n with
  | report b =>
    obtain ⟨r, h⟩ := raise_eq s b
    exact ⟨s.runLog, r, h⟩
  | entry e => exact appendRun_eq s e

/-- Notes change the run log and the report unit alone. -/
theorem noted_eq (s : State) (l : List Note) :
    s.noted l = { s with runLog := (s.noted l).runLog, reports := (s.noted l).reports } := by
  induction l generalizing s with
  | nil => rfl
  | cons n rest ih =>
    obtain ⟨log, r, h⟩ := note_eq s n
    rw [noted_cons, ih (s.note n), h]

/-- What a note writes is determined by the run log, the report unit and internal time. -/
theorem note_congr {s t : State} (n : Note) (hl : t.runLog = s.runLog) (hr : t.reports = s.reports)
    (ht : t.time = s.time) : (t.note n).runLog = (s.note n).runLog ∧ (t.note n).reports = (s.note n).reports := by
  have raising : ∀ (u v : State) (b : ReportBody), v.runLog = u.runLog → v.reports = u.reports → v.time = u.time →
      (v.raise b).runLog = (u.raise b).runLog ∧ (v.raise b).reports = (u.raise b).reports := by
    intro u v b hl hr ht
    unfold State.raise
    dsimp only
    rw [hr, ht]
    split <;> exact ⟨hl, by simp [hr]⟩
  cases n with
  | report b => exact raising s t b hl hr ht
  | entry e =>
    simp only [State.note, State.appendRun, hl]
    exact raising _ _ _ rfl hr ht

theorem noted_congr {s t : State} (l : List Note) (hl : t.runLog = s.runLog) (hr : t.reports = s.reports)
    (ht : t.time = s.time) : (t.noted l).runLog = (s.noted l).runLog ∧ (t.noted l).reports = (s.noted l).reports := by
  induction l generalizing s t with
  | nil => exact ⟨hl, hr⟩
  | cons n rest ih =>
    obtain ⟨hl', hr'⟩ := note_congr n hl hr ht
    obtain ⟨a, b, hs⟩ := note_eq s n
    obtain ⟨a', b', ht'⟩ := note_eq t n
    exact ih hl' hr' (by rw [hs, ht']; exact ht)

/-! ## The arm state of the panel bound to a channel -/

@[simp] theorem setPanel_restore (s : State) (p : PanelId) : s.setPanel p (s.panel p) = s := by
  simp [State.setPanel, State.panel]

@[simp] theorem setArm_restore (s : State) (p : PanelId) : s.setArm p (s.panel p).arm = s :=
  setPanel_restore s p

/-- The panel bound to channel c is given another arm state. -/
def State.rearm (s : State) (c : ChannelId) (f : ArmState → ArmState) : State :=
  match s.boundPanel c with
  | some p => s.setArm p (f (s.panel p).arm)
  | none => s

/-- What leaves SHUTTLE disarms when it was LOST (R111). -/
def ArmState.unlost (a : ArmState) : ArmState := if a = .lost then .disarmed else a

theorem setArm_binding (s : State) (p q : PanelId) (a : ArmState) :
    ((s.setArm p a).panel q).binding = (s.panel q).binding := by
  by_cases h : q = p
  · subst h; simp [State.setArm]
  · simp [State.setArm, setPanel_panel_ne _ _ _ h]

theorem boundPanel_congr {s t : State} (c : ChannelId) (h : ∀ p, (t.panel p).binding = (s.panel p).binding) :
    t.boundPanel c = s.boundPanel c := by
  simp only [State.boundPanel, h]

theorem rearm_eq (s : State) (c : ChannelId) (f : ArmState → ArmState) :
    s.rearm c f = { s with panels := (s.rearm c f).panels } := by
  unfold State.rearm
  split <;> rfl

@[simp] theorem rearm_id (s : State) (c : ChannelId) : s.rearm c id = s := by
  unfold State.rearm
  split
  · exact setArm_restore ..
  · rfl

theorem rearm_binding (s : State) (c : ChannelId) (f : ArmState → ArmState) (p : PanelId) :
    ((s.rearm c f).panel p).binding = (s.panel p).binding := by
  unfold State.rearm
  split
  · exact setArm_binding ..
  · rfl

theorem rearm_rearm (s : State) (c : ChannelId) (f g : ArmState → ArmState) :
    (s.rearm c f).rearm c g = s.rearm c (g ∘ f) := by
  have bound := boundPanel_congr c (rearm_binding s c f)
  cases h : s.boundPanel c with
  | none => simp [State.rearm, h]
  | some p =>
    have hs : s.rearm c f = s.setArm p (f (s.panel p).arm) := by simp [State.rearm, h]
    rw [State.rearm, bound, h, hs, State.rearm, h]
    simp [State.setArm]

theorem rearm_congr {s t : State} (c : ChannelId) (f : ArmState → ArmState) (h : t.panels = s.panels) :
    (t.rearm c f).panels = (s.rearm c f).panels := by
  have hp : ∀ p, t.panel p = s.panel p := fun p => by simp [State.panel, h]
  have bound : t.boundPanel c = s.boundPanel c := boundPanel_congr c fun p => by rw [hp]
  unfold State.rearm
  rw [bound]
  split
  · simp [State.setArm, State.setPanel, hp, h]
  · exact h

theorem boundPanel_binding {s : State} {c : ChannelId} {p : PanelId} (h : s.boundPanel c = some p) :
    (s.panel p).binding = some c := by
  simpa using List.find?_some h

theorem mem_allPanels (p : PanelId) : p ∈ allPanels := by
  revert p
  decide

theorem mem_allChannels (c : ChannelId) : c ∈ allChannels := by
  revert c
  decide

theorem boundPanel_none {s : State} {c : ChannelId} (h : s.boundPanel c = none) (p : PanelId) :
    (s.panel p).binding ≠ some c := by
  simpa using List.find?_eq_none.mp h p (mem_allPanels p)

/-- A panel that is not bound to the channel keeps its record. -/
theorem rearm_panel_unbound {s : State} {c : ChannelId} (f : ArmState → ArmState) {p : PanelId}
    (h : (s.panel p).binding ≠ some c) : (s.rearm c f).panel p = s.panel p := by
  unfold State.rearm
  split
  · next q hq =>
    have hne : p ≠ q := fun e => h (e ▸ boundPanel_binding hq)
    exact setPanel_panel_ne _ _ _ hne
  · rfl

/-- Where no channel is bound to two panels, the panel bound to it is given its new arm state. -/
theorem rearm_panel_bound {s : State} {c : ChannelId} (law : s.tableLaw) (f : ArmState → ArmState) {p : PanelId}
    (h : (s.panel p).binding = some c) :
    (s.rearm c f).panel p = { s.panel p with arm := f (s.panel p).arm } := by
  obtain ⟨-, -, -, single⟩ := law
  unfold State.rearm
  split
  · next q hq =>
    obtain rfl : p = q := single p q c h (boundPanel_binding hq)
    exact setPanel_panel_self ..
  · next hn => exact absurd h (boundPanel_none hn p)

theorem disarmLost_eq_rearm (s : State) (c : ChannelId) : s.disarmLost c = s.rearm c ArmState.unlost := by
  unfold State.disarmLost State.rearm
  cases s.boundPanel c with
  | none => rfl
  | some p =>
    by_cases h : (s.panel p).arm = .lost
    · simp [ArmState.unlost, h]
    · simp [ArmState.unlost, h]

theorem disarm_eq_rearm (s : State) (c : ChannelId) : s.disarm c = s.rearm c fun _ => .disarmed := rfl

/-- Every panel keeps all but its arm state. -/
theorem rearm_panel (s : State) (c : ChannelId) (f : ArmState → ArmState) (p : PanelId) :
    ∃ a, (s.rearm c f).panel p = { s.panel p with arm := a } := by
  unfold State.rearm
  split
  · next q hq =>
    by_cases h : p = q
    · subst h; exact ⟨_, setPanel_panel_self ..⟩
    · exact ⟨_, setPanel_panel_ne _ _ _ h⟩
  · exact ⟨_, rfl⟩

/-! ## The normal form -/

/-- The state in which channel c has the record and the queue given, the panel bound to it the arm state f gives it,
and notes are made in order; with the count of free values. -/
def State.played (s : State) (c : ChannelId) (new : Channel) (q : PlayQueue) (f : ArmState → ArmState)
    (notes : List Note) (free : Nat) : State :=
  { s with
    channels := s.channels.set c.val new
    queues := s.queues.set c.val q
    panels := (s.rearm c f).panels
    runLog := (s.noted notes).runLog
    reports := (s.noted notes).reports
    freeReads := free }

section played

variable (s : State) (c : ChannelId) (new : Channel) (q : PlayQueue) (f : ArmState → ArmState) (notes : List Note)
  (free : Nat)

@[simp] theorem played_pending : (s.played c new q f notes free).pending = s.pending := rfl
@[simp] theorem played_resetAsserted : (s.played c new q f notes free).resetAsserted = s.resetAsserted := rfl
@[simp] theorem played_time : (s.played c new q f notes free).time = s.time := rfl
@[simp] theorem played_timebase : (s.played c new q f notes free).timebase = s.timebase := rfl
@[simp] theorem played_trains : (s.played c new q f notes free).trains = s.trains := rfl
@[simp] theorem played_maps : (s.played c new q f notes free).maps = s.maps := rfl
@[simp] theorem played_locks : (s.played c new q f notes free).locks = s.locks := rfl
@[simp] theorem played_clips : (s.played c new q f notes free).clips = s.clips := rfl
@[simp] theorem played_guards : (s.played c new q f notes free).guards = s.guards := rfl
@[simp] theorem played_port : (s.played c new q f notes free).port = s.port := rfl
@[simp] theorem played_faults : (s.played c new q f notes free).faults = s.faults := rfl
@[simp] theorem played_alarm : (s.played c new q f notes free).alarm = s.alarm := rfl
@[simp] theorem played_ingest : (s.played c new q f notes free).ingest = s.ingest := rfl
@[simp] theorem played_playout : (s.played c new q f notes free).playout = s.playout := rfl
@[simp] theorem played_receivers : (s.played c new q f notes free).receivers = s.receivers := rfl
@[simp] theorem played_freeReads : (s.played c new q f notes free).freeReads = free := rfl
@[simp] theorem played_train (x : TrainId) : (s.played c new q f notes free).train x = s.train x := rfl
@[simp] theorem played_map (x : TrainId) : (s.played c new q f notes free).map x = s.map x := rfl
@[simp] theorem played_clipOf (id : Nat) : (s.played c new q f notes free).clipOf id = s.clipOf id := rfl
@[simp] theorem played_angleOf (id i : Nat) : (s.played c new q f notes free).angleOf id i = s.angleOf id i := rfl
@[simp] theorem played_presentAngle (id i : Nat) :
    (s.played c new q f notes free).presentAngle id i = s.presentAngle id i := rfl
@[simp] theorem played_loadable (e : QueueEntry) :
    (s.played c new q f notes free).loadable e = s.loadable e := rfl
@[simp] theorem played_entryAngle (e : QueueEntry) :
    (s.played c new q f notes free).entryAngle e = s.entryAngle e := rfl
@[simp] theorem played_entrySpeed (e : QueueEntry) :
    (s.played c new q f notes free).entrySpeed e = s.entrySpeed e := rfl
@[simp] theorem played_freshBounce (src : Source) (v : Int) :
    (s.played c new q f notes free).freshBounce src v = s.freshBounce src v := rfl
@[simp] theorem played_bounds (src : Source) : (s.played c new q f notes free).bounds src = s.bounds src := rfl
@[simp] theorem played_sourceTrain (src : Source) :
    (s.played c new q f notes free).sourceTrain src = s.sourceTrain src := rfl
@[simp] theorem played_sourceField (src : Source) :
    (s.played c new q f notes free).sourceField src = s.sourceField src := rfl
@[simp] theorem played_mapHead (x y : TrainId) (h : Nat) :
    (s.played c new q f notes free).mapHead x y h = s.mapHead x y h := rfl
@[simp] theorem played_reports : (s.played c new q f notes free).reports = (s.noted notes).reports := rfl
@[simp] theorem played_runLog : (s.played c new q f notes free).runLog = (s.noted notes).runLog := rfl

@[simp] theorem played_channel_self : (s.played c new q f notes free).channel c = new := by
  simp [State.played, State.channel]

@[simp] theorem played_queue_self : (s.played c new q f notes free).queue c = q := by
  simp [State.played, State.queue]

theorem played_channel_ne {d : ChannelId} (h : d ≠ c) : (s.played c new q f notes free).channel d = s.channel d := by
  have h' : c.val ≠ d.val := fun e => h (Fin.ext e.symm)
  simp [State.played, State.channel, Vector.getElem_set_ne _ _ h']

theorem played_queue_ne {d : ChannelId} (h : d ≠ c) : (s.played c new q f notes free).queue d = s.queue d := by
  have h' : c.val ≠ d.val := fun e => h (Fin.ext e.symm)
  simp [State.played, State.queue, Vector.getElem_set_ne _ _ h']

theorem played_panel (p : PanelId) : (s.played c new q f notes free).panel p = (s.rearm c f).panel p := rfl

theorem played_boundPanel (d : ChannelId) : (s.played c new q f notes free).boundPanel d = s.boundPanel d :=
  boundPanel_congr d fun p => rearm_binding s c f p

/-- One channel operation after another is one channel operation. -/
@[simp] theorem played_played (new' : Channel) (q' : PlayQueue) (g : ArmState → ArmState) (more : List Note)
    (free' : Nat) : (s.played c new q f notes free).played c new' q' g more free' =
      s.played c new' q' (g ∘ f) (notes ++ more) free' := by
  have panels : ((s.played c new q f notes free).rearm c g).panels = (s.rearm c (g ∘ f)).panels := by
    rw [← rearm_rearm]
    exact rearm_congr c g rfl
  obtain ⟨log, reports⟩ : ((s.played c new q f notes free).noted more).runLog = (s.noted (notes ++ more)).runLog ∧
      ((s.played c new q f notes free).noted more).reports = (s.noted (notes ++ more)).reports := by
    rw [noted_append]
    refine noted_congr more rfl rfl ?_
    rw [noted_eq s notes]
    rfl
  unfold State.played at *
  simp only [panels, log, reports, Vector.set_set]

end played

/-! ## The normal form of the shared operations -/

section atoms

variable (s : State) (c : ChannelId)

theorem played_self : s.played c (s.channel c) (s.queue c) id [] s.freeReads = s := by
  simp [State.played, State.channel, State.queue]

theorem setChannel_eq_played (ch : Channel) :
    s.setChannel c ch = s.played c ch (s.queue c) id [] s.freeReads := by
  simp [State.played, State.setChannel, State.queue]

theorem setQueue_eq_played (q : PlayQueue) :
    s.setQueue c q = s.played c (s.channel c) q id [] s.freeReads := by
  simp [State.played, State.setQueue, State.channel]

theorem note_eq_played (n : Note) : s.note n = s.played c (s.channel c) (s.queue c) id [n] s.freeReads := by
  have h := noted_eq s [n]
  simp only [noted_cons, noted_nil] at h
  rw [h]
  simp [State.played, State.channel, State.queue]

theorem raise_eq_played (b : ReportBody) :
    s.raise b = s.played c (s.channel c) (s.queue c) id [.report b] s.freeReads :=
  note_eq_played s c (.report b)

theorem appendRun_eq_played (e : RunEntry) :
    s.appendRun e = s.played c (s.channel c) (s.queue c) id [.entry e] s.freeReads :=
  note_eq_played s c (.entry e)

theorem rearm_eq_played (f : ArmState → ArmState) :
    s.rearm c f = s.played c (s.channel c) (s.queue c) f [] s.freeReads := by
  rw [rearm_eq]
  simp [State.played, State.channel, State.queue]

/-- What a change from one state to another does to the arm state of the bound panel (R111). -/
def leaveArm (before after : TransportState) : ArmState → ArmState :=
  if before = .shuttle ∧ after ≠ .shuttle then ArmState.unlost else id

/-- A commit stores the record less what leaving discards, disarms a LOST panel on leaving SHUTTLE, and reports the
change (R70, R111). -/
theorem commit_eq_played (cause : Cause) (new : Channel) :
    s.commit c cause new = s.played c (new.leave (s.channel c)) (s.queue c)
      (leaveArm (s.channel c).state new.state) ((s.changeReport c new cause).map .report) s.freeReads := by
  have stored : (if (s.channel c).state = .shuttle ∧ new.state ≠ .shuttle then
      (s.setChannel c (new.leave (s.channel c))).disarmLost c else s.setChannel c (new.leave (s.channel c))) =
      s.played c (new.leave (s.channel c)) (s.queue c) (leaveArm (s.channel c).state new.state) [] s.freeReads := by
    unfold leaveArm
    split
    · rw [disarmLost_eq_rearm, rearm_eq_played, setChannel_eq_played]
      simp
    · exact setChannel_eq_played ..
  unfold State.commit State.changeReport
  simp only [stored]
  by_cases h : (s.channel c).state = new.state ∧ (s.channel c).source = new.source
  · rw [if_pos h, if_neg (by tauto)]
    rfl
  · rw [if_neg h, if_pos (by tauto), raise_eq_played _ c]
    simp [State.sourceField, Config.sfu]

/-- A queue with a session opened on a source: on an angle that is in the table, a fresh one (R73, R174). -/
def State.opened (s : State) (src : Source) (q : PlayQueue) : PlayQueue :=
  match src with
  | .clip id i =>
    match s.angleOf id i with
    | some a => { q with session := some (freshSession id a.train) }
    | none => q
  | _ => q

@[simp] theorem opened_entries (src : Source) (q : PlayQueue) : (s.opened src q).entries = q.entries := by
  unfold State.opened
  split
  · split <;> rfl
  · rfl

@[simp] theorem opened_playing (src : Source) (q : PlayQueue) : (s.opened src q).playing = q.playing := by
  unfold State.opened
  split
  · split <;> rfl
  · rfl

theorem opened_clip {id i : Nat} {a : Angle} (h : s.angleOf id i = some a) (q : PlayQueue) :
    s.opened (.clip id i) q = { q with session := some (freshSession id a.train) } := by
  simp [State.opened, h]

@[simp] theorem played_opened (new : Channel) (q r : PlayQueue) (f : ArmState → ArmState) (notes : List Note)
    (free : Nat) (src : Source) : (s.played c new q f notes free).opened src r = s.opened src r := rfl

theorem openSession_eq_played : s.openSession c =
    s.played c (s.channel c) (s.opened (s.channel c).source (s.queue c)) id [] s.freeReads := by
  unfold State.openSession State.opened
  cases hs : (s.channel c).source with
  | clip id i =>
    dsimp only
    cases ha : s.angleOf id i with
    | none => exact (played_self s c).symm
    | some a => exact setQueue_eq_played ..
  | noSource => exact (played_self s c).symm
  | train x => exact (played_self s c).symm

theorem endSession_none_eq_played (o : RunOutcome) : s.endSession c o none =
    s.played c (s.channel c) { s.queue c with session := none } id ((s.endedOn o [c]).map .entry) s.freeReads := by
  unfold State.endSession State.endedOn
  simp only [List.flatMap_cons, List.flatMap_nil, List.append_nil]
  cases h : (s.queue c).session with
  | none =>
    have hq : { s.queue c with session := none } = s.queue c := by
      rcases hrec : s.queue c with ⟨a, b, g⟩
      simp_all
    simp only [Option.toList_none, List.map_nil, hq]
    exact (played_self s c).symm
  | some r =>
    dsimp only
    rw [appendRun_eq_played _ c, setQueue_eq_played]
    simp

theorem endQueuePlay_eq_played :
    s.endQueuePlay c = s.played c (s.channel c) { s.queue c with playing := false } id [] s.freeReads :=
  setQueue_eq_played ..

/-- A programme cut ends the open session, logging it, and queue play (R73, R172). -/
theorem cutProgramme_eq_played (o : RunOutcome) : s.cutProgramme c o =
    s.played c (s.channel c) { s.queue c with session := none, playing := false } id
      ((s.endedOn o [c]).map .entry) s.freeReads := by
  unfold State.cutProgramme
  rw [endQueuePlay_eq_played, endSession_none_eq_played]
  simp

@[simp] theorem cutProgramme_channel (o : RunOutcome) (d : ChannelId) :
    (s.cutProgramme c o).channel d = s.channel d := by
  rw [cutProgramme_eq_played]
  by_cases h : d = c
  · subst h; exact played_channel_self ..
  · exact played_channel_ne _ _ _ _ _ _ _ h

end atoms

end Sys2Proof.Machine
end

section
/-! What notes leave in the run log and the report queue, what a channel operation leaves alone, and what the laws of
the device ask of it. -/

namespace Sys2Proof.Machine

/-! ## What notes leave -/

/-- The run log entries among notes. -/
def entriesOf : List Note → List RunEntry
  | [] => []
  | .report _ :: rest => entriesOf rest
  | .entry e :: rest => e :: entriesOf rest

/-- The reports notes raise, from a run log of a size on: an entry's is RUNLOG/APPENDED with the size it leaves (R175). -/
def bodiesOf : Nat → List Note → List ReportBody
  | _, [] => []
  | size, .report b :: rest => b :: bodiesOf size rest
  | size, .entry e :: rest =>
    .appended e.channel e.clip e.outcome (min 256 (size + 1)) :: bodiesOf (min 256 (size + 1)) rest

theorem entriesOf_append (l m : List Note) : entriesOf (l ++ m) = entriesOf l ++ entriesOf m := by
  induction l with
  | nil => rfl
  | cons n rest ih => cases n <;> simp [entriesOf, ih]

@[simp] theorem entriesOf_reports (bs : List ReportBody) : entriesOf (bs.map .report) = [] := by
  induction bs with
  | nil => rfl
  | cons b rest ih => exact ih

@[simp] theorem entriesOf_entries (es : List RunEntry) : entriesOf (es.map .entry) = es := by
  induction es with
  | nil => rfl
  | cons e rest ih => exact congrArg (e :: ·) ih

@[simp] theorem bodiesOf_reports (size : Nat) (bs : List ReportBody) : bodiesOf size (bs.map .report) = bs := by
  induction bs with
  | nil => rfl
  | cons b rest ih => exact congrArg (b :: ·) ih

/-- Entries logged and then reports raised. -/
theorem bodiesOf_entries_reports (size : Nat) (es : List RunEntry) (bs : List ReportBody) :
    bodiesOf size (es.map .entry ++ bs.map .report) = appendReports size es ++ bs := by
  induction es generalizing size with
  | nil => exact bodiesOf_reports size bs
  | cons e rest ih => exact congrArg (_ :: ·) (ih _)

theorem raise_runLog (s : State) (b : ReportBody) : (s.raise b).runLog = s.runLog := by
  obtain ⟨r, h⟩ := raise_eq s b
  rw [h]

theorem raise_time (s : State) (b : ReportBody) : (s.raise b).time = s.time := by
  obtain ⟨r, h⟩ := raise_eq s b
  rw [h]

theorem note_time (s : State) (n : Note) : (s.note n).time = s.time := by
  obtain ⟨l, r, h⟩ := note_eq s n
  rw [h]

/-- The run log with an entry appended (R175). -/
def RunLog.append (l : RunLog) (e : RunEntry) : RunLog :=
  if l.entries.length < 256 then { l with entries := l.entries ++ [e] }
  else { entries := l.entries.drop 1 ++ [e], overrun := true }

theorem appendRun_runLog (s : State) (e : RunEntry) : (s.appendRun e).runLog = s.runLog.append e :=
  raise_runLog ..

theorem RunLog.append_length {l : RunLog} (e : RunEntry) (h : l.entries.length ≤ 256) :
    (l.append e).entries.length = min 256 (l.entries.length + 1) := by
  unfold RunLog.append
  split <;> simp <;> omega

/-- Reports leave the run log. -/
theorem noted_runLog_of_reports {s : State} {l : List Note} (h : entriesOf l = []) :
    (s.noted l).runLog = s.runLog := by
  induction l generalizing s with
  | nil => rfl
  | cons n rest ih =>
    cases n with
    | report b => exact (ih (s := s.raise b) h).trans (raise_runLog s b)
    | entry e => simp [entriesOf] at h

theorem noted_runLog (s : State) (l : List Note) : (s.noted l).runLog = (entriesOf l).foldl RunLog.append s.runLog := by
  induction l generalizing s with
  | nil => rfl
  | cons n rest ih =>
    rw [noted_cons, ih]
    cases n with
    | report b => exact congrArg (List.foldl RunLog.append · _) (raise_runLog s b)
    | entry e => exact congrArg (List.foldl RunLog.append · _) (appendRun_runLog s e)

/-- The run log keeps the youngest 256 entries and its overrun flag tells whether any was discarded (R175). -/
theorem foldl_append_runLog (l : RunLog) (es : List RunEntry) (h : l.entries.length ≤ 256) :
    es.foldl RunLog.append l = ⟨(l.entries ++ es).drop ((l.entries ++ es).length - 256),
      l.overrun || decide (256 < (l.entries ++ es).length)⟩ := by
  induction es generalizing l with
  | nil =>
    have short : l.entries.length - 256 = 0 := by omega
    simp [short, Nat.not_lt.mpr h]
  | cons e rest ih =>
    have bound : (l.append e).entries.length ≤ 256 := by rw [RunLog.append_length e h]; omega
    rw [List.foldl_cons, ih _ bound]
    unfold RunLog.append
    split
    · simp
    · next full =>
      rcases hl : l.entries with _ | ⟨a, as⟩
      · exact absurd (by simp [hl]) full
      · have size : as.length = 255 := by
          rw [hl, List.length_cons] at h full
          omega
        have longer : (a :: as ++ e :: rest).length = (as ++ e :: rest).length + 1 := rfl
        have long : (as ++ e :: rest).length = rest.length + 256 := by
          rw [List.length_append, List.length_cons, size]
          omega
        have oldest : (a :: as ++ e :: rest).drop ((a :: as ++ e :: rest).length - 256) =
            (as ++ e :: rest).drop ((as ++ e :: rest).length - 256) := by
          rw [longer, long, show rest.length + 256 + 1 - 256 = (rest.length + 256 - 256) + 1 by omega,
            List.cons_append, List.drop_succ_cons]
        have past : decide (256 < (a :: as ++ e :: rest).length) = true := by
          rw [longer, long]
          exact decide_eq_true (by omega)
        rw [oldest, past]
        simp only [List.drop_one, List.tail_cons, List.append_assoc, List.singleton_append, Bool.true_or, Bool.or_true]

/-- The entries among notes are appended to the run log in order (R175). -/
theorem noted_logged {s : State} (l : List Note) (h : s.runLog.entries.length ≤ 256) :
    s.logged (s.noted l) (entriesOf l) := by
  unfold State.logged
  rw [noted_runLog, foldl_append_runLog _ _ h]

theorem noted_runLog_length {s : State} (l : List Note) (h : s.runLog.entries.length ≤ 256) :
    (s.noted l).runLog.entries.length ≤ 256 := by
  rw [noted_runLog, foldl_append_runLog _ _ h]
  simp only [List.length_drop]
  omega

theorem raise_reports_congr {s t : State} (b : ReportBody) (hr : t.reports = s.reports) (ht : t.time = s.time) :
    (t.raise b).reports = (s.raise b).reports := by
  unfold State.raise
  dsimp only
  rw [hr, ht]
  split <;> simp [hr]

theorem raises_reports_congr {s t : State} (bs : List ReportBody) (hr : t.reports = s.reports)
    (ht : t.time = s.time) : (bs.foldl State.raise t).reports = (bs.foldl State.raise s).reports := by
  induction bs generalizing s t with
  | nil => exact hr
  | cons b rest ih =>
    exact ih (raise_reports_congr b hr ht) (by rw [raise_time, raise_time]; exact ht)

/-- The reports notes raise, in order. -/
theorem noted_raised {s : State} (l : List Note) (h : s.runLog.entries.length ≤ 256) :
    s.raised (s.noted l) (bodiesOf s.runLog.entries.length l) := by
  unfold State.raised
  induction l generalizing s with
  | nil => rfl
  | cons n rest ih =>
    cases n with
    | report b =>
      have := ih (s := s.raise b) (by rw [raise_runLog]; exact h)
      rw [raise_runLog] at this
      exact this
    | entry e =>
      have size := RunLog.append_length e h
      have bound : (s.appendRun e).runLog.entries.length ≤ 256 := appendRun_length s e h
      have := ih (s := s.appendRun e) bound
      rw [appendRun_runLog, size] at this
      refine this.trans ?_
      simp only [bodiesOf, List.foldl_cons]
      refine raises_reports_congr _ ?_ ?_
      · have hsize : (if s.runLog.entries.length < 256 then { s.runLog with entries := s.runLog.entries ++ [e] }
            else { entries := s.runLog.entries.drop 1 ++ [e], overrun := true } : RunLog).entries.length =
            min 256 (s.runLog.entries.length + 1) := size
        simp only [State.appendRun, hsize]
        exact raise_reports_congr _ rfl rfl
      · rw [raise_time]; exact note_time s (.entry e)

theorem raise_reports_length {s : State} (b : ReportBody) (h : s.reports.queue.length ≤ 64) :
    (s.raise b).reports.queue.length ≤ 64 := by
  unfold State.raise
  dsimp only
  split
  · exact hand_length _ _ h
  · exact h

theorem note_reports_length {s : State} (n : Note) (h : s.reports.queue.length ≤ 64) :
    (s.note n).reports.queue.length ≤ 64 := by
  cases n with
  | report b => exact raise_reports_length b h
  | entry e => exact raise_reports_length (s := { s with runLog := _ }) _ h

theorem noted_reports_length {s : State} (l : List Note) (h : s.reports.queue.length ≤ 64) :
    (s.noted l).reports.queue.length ≤ 64 := by
  induction l generalizing s with
  | nil => exact h
  | cons n rest ih => exact ih (note_reports_length n h)

/-! ## What a channel operation leaves alone -/

section frame

variable {s : State} {c : ChannelId} {new : Channel} {q : PlayQueue} {f : ArmState → ArmState} {notes : List Note}
  {free : Nat}

theorem played_keepsOthers : s.keepsOthers (s.played c new q f notes free) c :=
  fun _ hd => ⟨played_channel_ne _ _ _ _ _ _ _ hd, played_queue_ne _ _ _ _ _ _ _ hd⟩

/-- A channel operation that disarms what leaving the channel's state disarms leaves the other panels alone (R111). -/
theorem played_panelsLeft :
    s.panelsLeft (s.played c new q (leaveArm (s.channel c).state new.state) notes free) c := by
  intro law p
  rw [played_panel, played_channel_self]
  by_cases bound : (s.panel p).binding = some c
  · rw [rearm_panel_bound law _ bound]
    unfold leaveArm ArmState.unlost
    by_cases hl : (s.channel c).state = .shuttle ∧ new.state ≠ .shuttle
    · by_cases ha : (s.panel p).arm = .lost
      · simp [bound, hl, ha]
      · simp only [if_pos hl, if_neg ha]
        rw [if_neg fun h => ha h.2.1]
    · rw [if_neg hl, if_neg fun h => hl h.2.2]
      rfl
  · rw [rearm_panel_unbound _ bound, if_neg fun h => bound h.1]

theorem played_channelFrame :
    s.channelFrame (s.played c new q (leaveArm (s.channel c).state new.state) notes s.freeReads) c :=
  ⟨⟨rfl, rfl, rfl, rfl⟩, ⟨rfl, rfl⟩, ⟨rfl, rfl⟩, ⟨rfl, rfl, rfl, rfl, rfl, rfl, rfl⟩, played_keepsOthers,
    played_panelsLeft, rfl⟩

/-- A channel operation that stays in its state leaves every panel. -/
theorem leaveArm_self (st : TransportState) : leaveArm st st = id := by
  simp [leaveArm]

theorem leaveArm_of_ne {before after : TransportState} (h : before ≠ .shuttle) : leaveArm before after = id := by
  simp [leaveArm, h]

/-- A channel operation's log. -/
theorem played_logged (h : s.runLog.entries.length ≤ 256) :
    s.logged (s.played c new q f notes free) (entriesOf notes) := noted_logged notes h

theorem played_raised (h : s.runLog.entries.length ≤ 256) :
    s.raised (s.played c new q f notes free) (bodiesOf s.runLog.entries.length notes) := noted_raised notes h

/-- A channel operation that logs nothing raises its reports whatever the size of the run log. -/
theorem played_raised_reports (bs : List ReportBody) :
    s.raised (s.played c new q f (bs.map .report) free) bs := by
  unfold State.raised
  rw [played_reports, noted_reports]

theorem played_runLog_of_reports (bs : List ReportBody) :
    (s.played c new q f (bs.map .report) free).runLog = s.runLog :=
  noted_runLog_of_reports (entriesOf_reports bs)

/-- The notes of a programme cut and of the change that cuts it. -/
def State.cutNotes (s : State) (c : ChannelId) (o : RunOutcome) (new : Channel) (cause : Cause) : List Note :=
  (s.endedOn o [c]).map .entry ++ (s.changeReport c new cause).map .report

theorem entriesOf_cutNotes (o : RunOutcome) (cause : Cause) :
    entriesOf (s.cutNotes c o new cause) = s.endedOn o [c] := by
  simp [State.cutNotes, entriesOf_append]

theorem endedOn_none {o : RunOutcome} (h : (s.queue c).session = none) : s.endedOn o [c] = [] := by
  simp [State.endedOn, h]

/-- The state after a programme cut, as its statement has it. -/
theorem played_programmeCut {o : RunOutcome} {cause : Cause} {ch : Channel} (entries : q.entries = (s.queue c).entries)
    (off : q.playing = false) :
    s.programmeCut (s.played c new q f (s.cutNotes c o ch cause) free) c o := by
  refine ⟨by rw [played_queue_self, entries], by rw [played_queue_self, off], fun h => ?_, fun h => ?_⟩
  · exact noted_runLog_of_reports (by rw [entriesOf_cutNotes, endedOn_none h])
  · have := played_logged (c := c) (new := new) (q := q) (f := f) (free := free)
      (notes := s.cutNotes c o ch cause) h
    rwa [entriesOf_cutNotes] at this

theorem played_raised_cut {cause : Cause} {ch : Channel} (h : s.runLog.entries.length ≤ 256) :
    s.raised (s.played c new q f (s.cutNotes c .cutShort ch cause) free) (s.cutReports c ch cause) := by
  have := played_raised (c := c) (new := new) (q := q) (f := f) (free := free)
    (notes := s.cutNotes c .cutShort ch cause) h
  rwa [State.cutNotes, bodiesOf_entries_reports] at this

end frame

/-- A programme cut and the change that cuts it. -/
theorem cutProgramme_commit (s : State) (c : ChannelId) (o : RunOutcome) (cause : Cause) (new : Channel) :
    (s.cutProgramme c o).commit c cause new = s.played c (new.leave (s.channel c))
      { s.queue c with session := none, playing := false } (leaveArm (s.channel c).state new.state)
      (s.cutNotes c o new cause) s.freeReads := by
  rw [cutProgramme_eq_played, commit_eq_played]
  simp [State.cutNotes, State.changeReport]

/-! ## What the laws ask of a channel operation -/

/-- What the laws of the device ask of the record and the queue an operation gives channel c, and of its notes. -/
structure State.Permits (s : State) (c : ChannelId) (new : Channel) (q : PlayQueue) (notes : List Note) : Prop where
  /-- The speeds fit the state (R69). -/
  fits : (s.channel c).speedsFit → new.speedsFit
  /-- The speeds lie in their range. -/
  range : s.speedLaw → inSpeedRange new.speed ∧ inSpeedRange new.target ∧ 1 ≤ new.accel ∧ new.accel ≤ 38400
  /-- So do the speeds of the queue's entries. -/
  entries : s.speedLaw → ∀ e ∈ q.entries, ∀ v, e.speed = some v → inSpeedRange v
  /-- FOLLOWING is neither entered nor left, and the gang role kept (R155). -/
  following : s.gangLaw → (new.state = .following ↔ (s.channel c).state = .following)
  ganged : s.gangLaw → (s.channel c).state = .following →
    new.source.isTrain = (s.channel c).source.isTrain ∧ q.playing = (s.queue c).playing
  leader : s.gangLaw → (new.role = .leader ↔ (s.channel c).role = .leader)
  follower : s.gangLaw → new.isFollower = (s.channel c).isFollower
  /-- The entry being played stands at the head of the queue (R164). -/
  queue : s.queueLaw → q.entries.length ≤ 32 ∧
    (q.playing = true → ∃ e rest index, q.entries = e :: rest ∧ new.source = .clip e.clip index)
  /-- A change of state or source is reported (R70). -/
  told : (s.channel c).state ≠ new.state ∨ (s.channel c).source ≠ new.source → ∃ x serial cause,
    .report (.stateChanged c (s.channel c).state new.state ⟨new.source, x⟩ serial cause) ∈ notes

/-- State t is s after one operation on channel c that the laws permit. -/
def State.PlaysOn (s t : State) (c : ChannelId) : Prop :=
  ∃ new q f notes free, t = s.played c new q f notes free ∧ s.Permits c new q notes

/-- A record that keeps its state, source, role and speeds, with the queue as it was, is permitted. -/
theorem permits_of_kept {s : State} {c : ChannelId} {new : Channel} {notes : List Note}
    (state : new.state = (s.channel c).state) (source : new.source = (s.channel c).source)
    (role : new.role = (s.channel c).role) (speed : new.speed = (s.channel c).speed)
    (target : new.target = (s.channel c).target) (accel : new.accel = (s.channel c).accel) :
    s.Permits c new (s.queue c) notes where
  fits h := by simpa only [Channel.speedsFit, state, speed, target] using h
  range h := by rw [speed, target, accel]; exact h.1 c
  entries h := h.2.2.1 c
  following _ := by rw [state]
  ganged _ _ := by rw [source]; exact ⟨rfl, rfl⟩
  leader _ := by rw [role]
  follower _ := by simp only [Channel.isFollower, role]
  queue h := by rw [source]; exact h c
  told h := by rw [state, source] at h; simp at h

theorem playsOn_refl (s : State) (c : ChannelId) : s.PlaysOn s c :=
  ⟨_, _, _, _, _, (played_self s c).symm, permits_of_kept rfl rfl rfl rfl rfl rfl⟩

theorem playsOn_setChannel {s : State} {c : ChannelId} {new : Channel} (h : s.Permits c new (s.queue c) []) :
    s.PlaysOn (s.setChannel c new) c :=
  ⟨_, _, _, _, _, setChannel_eq_played .., h⟩

theorem changeReport_told {s : State} {c : ChannelId} {new : Channel} (cause : Cause)
    (h : (s.channel c).state ≠ new.state ∨ (s.channel c).source ≠ new.source) : ∃ x serial why,
    .stateChanged c (s.channel c).state new.state ⟨new.source, x⟩ serial why ∈ s.changeReport c new cause := by
  have changed : ¬((s.channel c).state = new.state ∧ (s.channel c).source = new.source) := by tauto
  unfold State.changeReport
  rw [if_neg changed]
  exact ⟨_, _, _, List.mem_singleton.mpr rfl⟩

/-! Leaving a state keeps what the laws look at. -/

@[simp] theorem leave_state (new old : Channel) : (new.leave old).state = new.state := rfl
@[simp] theorem leave_source (new old : Channel) : (new.leave old).source = new.source := rfl
@[simp] theorem leave_role (new old : Channel) : (new.leave old).role = new.role := rfl
@[simp] theorem leave_speed (new old : Channel) : (new.leave old).speed = new.speed := rfl
@[simp] theorem leave_target (new old : Channel) : (new.leave old).target = new.target := rfl
@[simp] theorem leave_accel (new old : Channel) : (new.leave old).accel = new.accel := rfl

end Sys2Proof.Machine
end

section
/-! Transport control (spec 04, R71 to R80) and the channel settings (R92, R93): the normal form of each operation, what
the laws ask of it, and what each command is answered. -/

namespace Sys2Proof.Machine

/-! ## Verdicts -/

/-- What a verdict leaves stands in relation R to the state it was given on; a refusal leaves nothing. -/
def Verdict.leads (R : State → State → Prop) (s : State) : Verdict → Prop
  | .done t _ => R s t
  | .refuse _ => True

/-- State t is s after one operation on one channel that the laws permit. -/
def State.Plays (s t : State) : Prop := ∃ c, s.PlaysOn t c

theorem plays_refl (s : State) : s.Plays s := ⟨0, playsOn_refl s 0⟩

section leads

variable {R : State → State → Prop} {s : State}

theorem leads_ite {p : Prop} [Decidable p] {v w : Verdict} (hv : v.leads R s) (hw : w.leads R s) :
    (if p then v else w).leads R s := by
  split
  · exact hv
  · exact hw

theorem leads_onChannel {b : Byte} {f : ChannelId → State → Verdict} (h : ∀ c, (f c s).leads R s) :
    (onChannel b f s).leads R s := by
  unfold onChannel
  split
  · trivial
  · exact h _

theorem leads_ungangedOn {c : ChannelId} {f : State → Verdict}
    (h : (s.channel c).state ≠ .following → (f s).leads R s) : (ungangedOn c f s).leads R s := by
  unfold ungangedOn
  split
  · trivial
  · next hn => exact h hn

end leads

/-! ## A change of one channel -/

/-- What the laws ask of an operation that leaves FOLLOWING alone and keeps the role, the acceleration and the queue's
entries, and that either ends queue play or keeps the source. -/
theorem permits_of_change {s : State} {c : ChannelId} {new : Channel} {q : PlayQueue} {notes : List Note}
    (before : s.gangLaw → (s.channel c).state ≠ .following) (after : new.state ≠ .following)
    (role : new.role = (s.channel c).role) (accel : new.accel = (s.channel c).accel)
    (fits : (s.channel c).speedsFit → new.speedsFit)
    (range : s.speedLaw → inSpeedRange new.speed ∧ inSpeedRange new.target)
    (entries : q.entries = (s.queue c).entries)
    (playing : q.playing = false ∨ q.playing = (s.queue c).playing ∧ new.source = (s.channel c).source)
    (told : (s.channel c).state ≠ new.state ∨ (s.channel c).source ≠ new.source → ∃ x serial cause,
      .report (.stateChanged c (s.channel c).state new.state ⟨new.source, x⟩ serial cause) ∈ notes) :
    s.Permits c new q notes where
  fits := fits
  range h := by
    obtain ⟨hs, ht⟩ := range h
    rw [accel]
    exact ⟨hs, ht, (h.1 c).2.2⟩
  entries h := by rw [entries]; exact h.2.2.1 c
  following law := iff_of_false after (before law)
  ganged law h := absurd h (before law)
  leader _ := by rw [role]
  follower _ := by simp only [Channel.isFollower, role]
  queue h := by
    obtain ⟨length, head⟩ := h c
    refine ⟨entries ▸ length, fun hp => ?_⟩
    obtain off | ⟨on, source⟩ := playing
    · rw [off] at hp; cases hp
    · rw [entries, source]; exact head (on ▸ hp)
  told := told

theorem told_of_changeReport {s : State} {c : ChannelId} {new : Channel} {notes : List Note} (cause : Cause)
    (sub : ∀ b ∈ s.changeReport c new cause, .report b ∈ notes) :
    (s.channel c).state ≠ new.state ∨ (s.channel c).source ≠ new.source → ∃ x serial cause,
      .report (.stateChanged c (s.channel c).state new.state ⟨new.source, x⟩ serial cause) ∈ notes := by
  intro h
  obtain ⟨x, serial, why, hm⟩ := changeReport_told cause h
  exact ⟨x, serial, why, sub _ hm⟩

theorem mem_cutNotes {s : State} {c : ChannelId} {o : RunOutcome} {new : Channel} {cause : Cause} {b : ReportBody}
    (h : b ∈ s.changeReport c new cause) : .report b ∈ s.cutNotes c o new cause :=
  List.mem_append_right _ (List.mem_map_of_mem h)

/-- The speeds a state other than PLAYING and SHUTTLE is entered with lie in their range and fit it (R69). -/
theorem enter_speedsFit (ch : Channel) (st : TransportState) (hp : st ≠ .playing) (hs : st ≠ .shuttle) :
    (ch.enter st).speedsFit := by
  cases st <;> simp_all [Channel.enter, Channel.speedsFit]

theorem enter_range (ch : Channel) (st : TransportState) (hp : st ≠ .playing) (hs : st ≠ .shuttle) :
    inSpeedRange (ch.enter st).speed ∧ inSpeedRange (ch.enter st).target := by
  cases st <;> simp_all [Channel.enter, inSpeedRange]

@[simp] theorem enter_state (ch : Channel) (st : TransportState) : (ch.enter st).state = st := (enter_fields ch st).1
@[simp] theorem enter_source (ch : Channel) (st : TransportState) : (ch.enter st).source = ch.source :=
  (enter_fields ch st).2.1
@[simp] theorem enter_role (ch : Channel) (st : TransportState) : (ch.enter st).role = ch.role :=
  (enter_fields ch st).2.2.2
@[simp] theorem enter_accel (ch : Channel) (st : TransportState) : (ch.enter st).accel = ch.accel := by
  cases st <;> rfl

/-- A commit by which the channel enters a state other than PLAYING, SHUTTLE and FOLLOWING, with a new source only
outside queue play. -/
theorem playsOn_commit_enter {s : State} {c : ChannelId} (cause : Cause) {ch : Channel} {st : TransportState}
    (before : (s.channel c).state ≠ .following) (hp : st ≠ .playing) (hs : st ≠ .shuttle) (hf : st ≠ .following)
    (role : ch.role = (s.channel c).role) (accel : ch.accel = (s.channel c).accel)
    (source : ch.source = (s.channel c).source) :
    s.PlaysOn (s.commit c cause (ch.enter st)) c := by
  refine ⟨_, _, _, _, _, commit_eq_played .., permits_of_change (fun _ => before) ?_ ?_ ?_ (fun _ => ?_) (fun _ => ?_) rfl
    (.inr ⟨rfl, ?_⟩) (told_of_changeReport cause fun b hb => List.mem_map_of_mem hb)⟩
  · simpa using hf
  · simpa using role
  · simpa using accel
  · exact enter_speedsFit ch st hp hs
  · exact enter_range ch st hp hs
  · simpa using source

/-- A commit that keeps the state and the speeds, and that changes the source only outside queue play or within the
clip being played. -/
theorem playsOn_cut_enter_lawful {s : State} {c : ChannelId} (o : RunOutcome) (cause : Cause) {ch : Channel}
    {st : TransportState} (before : s.gangLaw → (s.channel c).state ≠ .following) (hp : st ≠ .playing)
    (hs : st ≠ .shuttle) (hf : st ≠ .following) (role : ch.role = (s.channel c).role)
    (accel : ch.accel = (s.channel c).accel) : s.PlaysOn ((s.cutProgramme c o).commit c cause (ch.enter st)) c := by
  refine ⟨_, _, _, _, _, cutProgramme_commit .., permits_of_change before ?_ ?_ ?_ (fun _ => ?_) (fun _ => ?_) rfl
    (.inl rfl) (told_of_changeReport cause fun b hb => mem_cutNotes hb)⟩
  · simpa using hf
  · simpa using role
  · simpa using accel
  · exact enter_speedsFit ch st hp hs
  · exact enter_range ch st hp hs

theorem playsOn_cut_enter {s : State} {c : ChannelId} (o : RunOutcome) (cause : Cause) {ch : Channel}
    {st : TransportState} (before : (s.channel c).state ≠ .following) (hp : st ≠ .playing) (hs : st ≠ .shuttle)
    (hf : st ≠ .following) (role : ch.role = (s.channel c).role) (accel : ch.accel = (s.channel c).accel) :
    s.PlaysOn ((s.cutProgramme c o).commit c cause (ch.enter st)) c :=
  playsOn_cut_enter_lawful o cause (fun _ => before) hp hs hf role accel

/-- Opening a session changes the open session alone. -/
theorem playsOn_openSession {s t : State} {c : ChannelId} (h : s.PlaysOn t c) : s.PlaysOn (t.openSession c) c := by
  obtain ⟨new, q, f, notes, free, rfl, ok⟩ := h
  obtain ⟨h1, h2, h3, h4, h5, h6, h7, h8, h9⟩ := ok
  refine ⟨_, _, _, _, _, by rw [openSession_eq_played, played_played], ?_⟩
  simp only [played_channel_self, played_queue_self, List.append_nil, played_opened]
  exact ⟨h1, h2, by simpa using h3, h4, by simpa using h5, h6, h7, by simpa using h8, h9⟩

theorem playsOn_openIfNone {s t : State} {c : ChannelId} (h : s.PlaysOn t c) : s.PlaysOn (t.openIfNone c) c := by
  unfold State.openIfNone
  split
  · exact playsOn_openSession h
  · exact h

/-! ## Sources -/

/-- LOAD_CLIP's effect: the clip's angle becomes the source in CUED at its in serial, with a session of its own
(R72). -/
theorem loadClip_eq_played {s : State} {id index : Nat} {a : Angle} (c : ChannelId)
    (ha : s.angleOf id index = some a) : s.loadClip c id index a =
    let new : Channel := { s.channel c with
      state := .cued, source := .clip id index, head := a.inSerial * 1200, speed := 0, target := 0
      bounce := none, edgeHold := false, jogAcc := (s.channel c).jogLeft }
    s.played c new { s.queue c with playing := false, session := some (freshSession id a.train) }
      (leaveArm (s.channel c).state new.state) (s.cutNotes c .cutShort new .command) s.freeReads := by
  unfold State.loadClip
  simp [cutProgramme_commit, openSession_eq_played, Channel.leave, Channel.enter, Channel.jogLeft, Config.sfu,
    State.cutNotes, State.changeReport, opened_clip s ha]

theorem loadClip_playsOn {s : State} {c : ChannelId} {id index : Nat} {a : Angle}
    (h : (s.channel c).state ≠ .following) : s.PlaysOn (s.loadClip c id index a) c :=
  playsOn_openSession (playsOn_cut_enter _ _ h (by decide) (by decide) (by decide) (by simp) (by simp))

theorem loadClipOn_plays {s : State} {c : ChannelId} {id : Nat} {angle : Option Nat}
    (h : (s.channel c).state ≠ .following) : (loadClipOn c id angle s).leads State.Plays s := by
  unfold loadClipOn
  split
  · trivial
  · split
    · trivial
    · exact ⟨c, loadClip_playsOn h⟩

/-- SELECT_TRAIN's effect on a channel that is not in LIVE (R74). -/
theorem selectTrain_eq_played {s : State} {c : ChannelId} (x : TrainId) (edge : Nat)
    (h : (s.channel c).state ≠ .live) : s.selectTrain c x edge =
    let new : Channel := { s.channel c with
      state := .cued, source := .train x, head := s.selectedHead c x edge, speed := 0, target := 0
      bounce := none, edgeHold := false, jogAcc := (s.channel c).jogLeft }
    s.played c new { s.queue c with playing := false, session := none }
      (leaveArm (s.channel c).state new.state) (s.cutNotes c .cutShort new .command) s.freeReads := by
  have head : (s.cutProgramme c .cutShort).selectedHead c x edge = s.selectedHead c x edge := by
    unfold State.selectedHead State.mapFrom
    rw [cutProgramme_channel, cutProgramme_eq_played]
    rfl
  unfold State.selectTrain
  simp [h, head, cutProgramme_commit, Channel.leave, Channel.enter, Channel.jogLeft, State.cutNotes,
    State.changeReport]

/-- SELECT_TRAIN's effect on a channel in LIVE (R74, R58). -/
theorem selectTrain_live_eq_played {s : State} {c : ChannelId} (x : TrainId) (edge : Nat)
    (h : (s.channel c).state = .live) : s.selectTrain c x edge =
    let new : Channel := { s.channel c with
      source := .train x, bounce := none, edgeHold := false
      head := ((s.train x).liveHead (s.channel c).liveDelay).getD (s.channel c).head }
    s.played c new { s.queue c with playing := false, session := none }
      (leaveArm (s.channel c).state new.state) (s.cutNotes c .cutShort new .command) s.freeReads := by
  have train : (s.cutProgramme c .cutShort).train x = s.train x := by rw [cutProgramme_eq_played]; rfl
  unfold State.selectTrain
  simp [h, train, cutProgramme_commit, Channel.leave, State.cutNotes, State.changeReport]

theorem selectTrain_playsOn {s : State} {c : ChannelId} {x : TrainId} {edge : Nat}
    (h : (s.channel c).state ≠ .following) : s.PlaysOn (s.selectTrain c x edge) c := by
  by_cases hl : (s.channel c).state = .live
  · rw [selectTrain_live_eq_played x edge hl]
    exact ⟨_, _, _, _, _, rfl, permits_of_change (fun _ => h) h rfl rfl id (fun law => (law.1 c).imp_right And.left) rfl (.inl rfl)
      (told_of_changeReport _ fun b hb => mem_cutNotes hb)⟩
  · unfold State.selectTrain
    simp only [cutProgramme_channel, if_neg hl]
    exact playsOn_cut_enter _ _ h (by decide) (by decide) (by decide) rfl rfl

theorem selectTrainOn_plays {s : State} {c : ChannelId} {x : TrainId} (h : (s.channel c).state ≠ .following) :
    (selectTrainOn c x s).leads State.Plays s := by
  unfold selectTrainOn
  split
  · trivial
  · exact ⟨c, selectTrain_playsOn h⟩

/-- UNLOAD's effect, and that of a discard (R75, R6). -/
theorem unloadChannel_eq_played (s : State) (c : ChannelId) (cause : Cause) (o : RunOutcome) :
    s.unloadChannel c cause o =
    let new : Channel := { s.channel c with
      state := .idle, source := .noSource, head := 0, speed := 0, target := 0, bounce := none
      edgeHold := false, jogAcc := 0 }
    s.played c new { s.queue c with playing := false, session := none }
      (leaveArm (s.channel c).state new.state) (s.cutNotes c o new cause) s.freeReads := by
  unfold State.unloadChannel
  simp [cutProgramme_commit, Channel.leave, Channel.enter, State.cutNotes, State.changeReport]

theorem unloadChannel_playsOn {s : State} {c : ChannelId} {cause : Cause} {o : RunOutcome}
    (h : (s.channel c).state ≠ .following) : s.PlaysOn (s.unloadChannel c cause o) c :=
  playsOn_cut_enter _ _ h (by decide) (by decide) (by decide) (by simp) (by simp)

theorem unloadOn_plays {s : State} {c : ChannelId} (h : (s.channel c).state ≠ .following) :
    (unloadOn c s).leads State.Plays s := by
  unfold unloadOn
  split
  · exact plays_refl s
  · exact ⟨c, unloadChannel_playsOn h⟩

/-! ## Speed and position -/

theorem clampSpeed_range (v : Int) : inSpeedRange (clampSpeed v) := by
  simp only [clampSpeed, Config.maxSpeed]
  omega

theorem entrySpeed_range {s : State} {c : ChannelId} {e : QueueEntry} (law : s.speedLaw)
    (h : e ∈ (s.queue c).entries) : inSpeedRange (s.entrySpeed e) := by
  obtain ⟨-, clips, queues, -⟩ := law
  unfold State.entrySpeed
  split
  · next v hv => exact queues c e h v hv
  · cases hk : s.clipOf e.clip with
    | none => simp [inSpeedRange]
    | some k =>
      cases hv : k.speed with
      | none => simp [inSpeedRange, hv]
      | some v => simpa [hv] using (clips k (List.mem_of_find?_eq_some hk)).1 v hv

theorem bounceSpeeds_range {s : State} (src : Source) (law : s.speedLaw) :
    inSpeedRange (s.bounceSpeeds src).1 ∧ inSpeedRange (-(s.bounceSpeeds src).2) := by
  obtain ⟨-, clips, -, -⟩ := law
  unfold State.bounceSpeeds
  split
  · next id i =>
    split
    · next b hb =>
      obtain ⟨k, hk, hb⟩ := Option.bind_eq_some_iff.mp hb
      have := (clips k (List.mem_of_find?_eq_some hk)).2 b hb
      simp only [inSpeedRange]
      omega
    · simp [inSpeedRange]
  · simp [inSpeedRange]

theorem clipSpeed_range {s : State} {c : ChannelId} (law : s.speedLaw) :
    inSpeedRange ((s.clipSpeed c).getD 1200) := by
  obtain ⟨-, clips, -, -⟩ := law
  cases h : s.clipSpeed c with
  | none => simp [inSpeedRange]
  | some v =>
    unfold State.clipSpeed at h
    split at h
    · obtain ⟨k, hk, hv⟩ := Option.bind_eq_some_iff.mp h
      exact (clips k (List.mem_of_find?_eq_some hk)).1 v hv
    · cases h

/-- The target PLAY chooses lies in the range of speeds. -/
theorem playTarget_range {s : State} {c : ChannelId} {given : Option Int} (hg : ∀ v, given = some v → inSpeedRange v)
    (law : s.speedLaw) : inSpeedRange (s.playTarget c given) := by
  unfold State.playTarget
  split
  · exact hg _ rfl
  · split
    · next v hv =>
      unfold State.queueSpeed at hv
      split at hv
      · obtain ⟨e, he, rfl⟩ := Option.map_eq_some_iff.mp hv
        exact entrySpeed_range law (List.mem_of_head? he)
      · cases hv
    · split
      · next v hv =>
        unfold State.bounceSpeed at hv
        split at hv
        · split at hv <;> obtain rfl := Option.some.inj hv
          · exact (bounceSpeeds_range _ law).1
          · exact (bounceSpeeds_range _ law).2
        · cases hv
      · exact clipSpeed_range law

/-- PLAY's effect on a channel that is not PLAYING (R76). -/
theorem play_eq_played {s : State} {c : ChannelId} (given : Option Int) (cause : Cause)
    (h : (s.channel c).state ≠ .playing) : s.play c given cause =
    let new : Channel := { s.channel c with
      state := .playing, target := s.playTarget c given, edgeHold := false, jogAcc := (s.channel c).jogLeft
      bounce := s.freshBounce (s.channel c).source (s.playTarget c given)
      speed := if (s.channel c).state = .live then 1200 else (s.channel c).speed }
    s.played c new (if (s.queue c).session.isNone then s.opened (s.channel c).source (s.queue c) else s.queue c)
      (leaveArm (s.channel c).state new.state) ((s.changeReport c new cause).map .report) s.freeReads := by
  unfold State.play State.openIfNone
  simp only [if_neg h, commit_eq_played, openSession_eq_played, played_queue_self]
  split <;> simp [Channel.leave, Channel.enter, Channel.jogLeft, State.changeReport, h]

theorem play_playsOn {s : State} {c : ChannelId} {given : Option Int} {cause : Cause}
    (hg : ∀ v, given = some v → inSpeedRange v) (h : (s.channel c).state ≠ .following) :
    s.PlaysOn (s.play c given cause) c := by
  by_cases hp : (s.channel c).state = .playing
  · unfold State.play
    simp only [if_pos hp]
    refine playsOn_setChannel (permits_of_change (fun _ => h) h rfl rfl (fun _ => ?_) (fun law => ?_) rfl (.inr ⟨rfl, rfl⟩)
      (by simp))
    · simp [Channel.speedsFit, hp]
    · exact ⟨(law.1 c).1, playTarget_range hg law⟩
  · unfold State.play
    simp only [if_neg hp]
    refine playsOn_openIfNone ⟨_, _, _, _, _, commit_eq_played .., permits_of_change (fun _ => h) (by simp) (by simp) (by simp)
      (fun _ => trivial) (fun law => ?_) rfl (.inr ⟨rfl, by simp⟩)
      (told_of_changeReport cause fun b hb => List.mem_map_of_mem hb)⟩
    refine ⟨?_, playTarget_range hg law⟩
    show inSpeedRange (if (s.channel c).state = .live then 1200 else (s.channel c).speed)
    split
    · simp [inSpeedRange]
    · exact (law.1 c).1

theorem playOn_plays {s : State} {c : ChannelId} {given : Option Int} {cause : Cause}
    (hg : ∀ v, given = some v → inSpeedRange v) (h : (s.channel c).state ≠ .following) :
    (playOn c given cause s).leads State.Plays s := by
  unfold playOn
  split
  · trivial
  · exact ⟨c, play_playsOn hg h⟩

theorem setTarget_playsOn {s : State} {c : ChannelId} {v : Int}
    (st : (s.channel c).state = .playing ∨ (s.channel c).state = .shuttle) (hv : inSpeedRange v) :
    s.PlaysOn (s.setChannel c { s.channel c with target := v }) c := by
  have free : (s.channel c).state ≠ .following := by rcases st with st | st <;> simp [st]
  refine playsOn_setChannel (permits_of_change (fun _ => free) free rfl rfl (fun _ => ?_) (fun law => ⟨(law.1 c).1, hv⟩) rfl
    (.inr ⟨rfl, rfl⟩) (by simp))
  rcases st with st | st <;> simp [Channel.speedsFit, st]

theorem setSpeedOn_plays {s : State} {c : ChannelId} {v : Int} (hv : inSpeedRange v) :
    (setSpeedOn c v s).leads State.Plays s := by
  unfold setSpeedOn
  split
  · trivial
  · next h => exact ⟨c, setTarget_playsOn (.inl h) hv⟩
  · next h => exact ⟨c, setTarget_playsOn (.inr h) hv⟩
  · trivial

/-- PAUSE's effect on a channel that is not CUED (R78). -/
theorem pause_eq_played {s : State} {c : ChannelId} (cause : Cause) : s.pause c cause =
    let new : Channel := { s.channel c with
      state := .cued, speed := 0, target := 0, bounce := none, edgeHold := false
      jogAcc := (s.channel c).jogLeft }
    s.played c new (s.queue c) (leaveArm (s.channel c).state new.state)
      ((s.changeReport c new cause).map .report) s.freeReads := by
  unfold State.pause
  simp [commit_eq_played, Channel.leave, Channel.enter, Channel.jogLeft, State.changeReport]

theorem pauseOn_plays {s : State} {c : ChannelId} {cause : Cause} (h : (s.channel c).state ≠ .following) :
    (pauseOn c cause s).leads State.Plays s := by
  unfold pauseOn
  split
  · trivial
  · exact plays_refl s
  · exact ⟨c, playsOn_commit_enter _ h (by decide) (by decide) (by decide) rfl rfl rfl⟩

/-- GOTO's effect, and a cue's, outside LIVE: the head moves and nothing is reported (R79, R106). -/
theorem gotoSerial_eq_played {s : State} {c : ChannelId} {lo hi : Nat} (serial : Nat) (cause : Cause)
    (hb : s.bounds (s.channel c).source = some (lo, hi)) (h : (s.channel c).state ≠ .live) :
    s.gotoSerial c serial cause =
    let new : Channel := { s.channel c with head := clampSerial lo hi serial * 1200, edgeHold := false }
    s.played c new (s.queue c) (leaveArm (s.channel c).state new.state)
      ((s.changeReport c new cause).map .report) s.freeReads := by
  unfold State.gotoSerial
  simp only [hb, if_neg h, commit_eq_played]
  simp [Channel.leave, State.changeReport, Config.sfu]

/-- GOTO's effect, and a cue's, in LIVE (R79, R106). -/
theorem gotoSerial_live_eq_played {s : State} {c : ChannelId} {lo hi : Nat} (serial : Nat) (cause : Cause)
    (hb : s.bounds (s.channel c).source = some (lo, hi)) (h : (s.channel c).state = .live) :
    s.gotoSerial c serial cause =
    let new : Channel := { s.channel c with
      state := .cued, speed := 0, target := 0, head := clampSerial lo hi serial * 1200, edgeHold := false }
    s.played c new (s.queue c) (leaveArm (s.channel c).state new.state)
      ((s.changeReport c new cause).map .report) s.freeReads := by
  unfold State.gotoSerial
  simp only [hb, if_pos h, commit_eq_played]
  simp [Channel.leave, Channel.enter, State.changeReport, Config.sfu, h]

theorem gotoSerial_playsOn {s : State} {c : ChannelId} {serial : Nat} {cause : Cause}
    (h : (s.channel c).state ≠ .following) : s.PlaysOn (s.gotoSerial c serial cause) c := by
  cases hb : s.bounds (s.channel c).source with
  | none =>
    unfold State.gotoSerial
    simp only [hb]
    exact playsOn_refl s c
  | some b =>
    obtain ⟨lo, hi⟩ := b
    by_cases hl : (s.channel c).state = .live
    · rw [gotoSerial_live_eq_played serial cause hb hl]
      refine ⟨_, _, _, _, _, rfl, permits_of_change (fun _ => h) (by simp) rfl rfl (fun _ => ?_) (fun _ => ?_) rfl
        (.inr ⟨rfl, rfl⟩) (told_of_changeReport cause fun b hb => List.mem_map_of_mem hb)⟩
      · simp [Channel.speedsFit]
      · simp [inSpeedRange]
    · rw [gotoSerial_eq_played serial cause hb hl]
      exact ⟨_, _, _, _, _, rfl, permits_of_kept rfl rfl rfl rfl rfl rfl⟩

theorem gotoTimecode_plays {s : State} {c : ChannelId} {f : TimecodeField} (h : (s.channel c).state ≠ .following) :
    (gotoTimecode c f s).leads State.Plays s := by
  unfold gotoTimecode
  split
  · trivial
  · split
    · trivial
    · split
      · trivial
      · exact ⟨c, gotoSerial_playsOn h⟩

theorem gotoOn_plays {s : State} {c : ChannelId} {serial : Option Word} {timecode : Option TimecodeField}
    (h : (s.channel c).state ≠ .following) : (gotoOn c serial timecode s).leads State.Plays s := by
  unfold gotoOn
  split
  · trivial
  · split
    · exact ⟨c, gotoSerial_playsOn h⟩
    · exact gotoTimecode_plays h
    · trivial

/-- LIVE's effect (R80). -/
theorem goLive_eq_played (s : State) (c : ChannelId) (x : TrainId) (delay : Option Nat) (cause : Cause) :
    s.goLive c x delay cause =
    let new : Channel := { s.channel c with
      state := .live, source := .train x, speed := 1200, target := 1200
      liveDelay := delay.getD (s.channel c).liveDelay, bounce := none, edgeHold := false
      jogAcc := (s.channel c).jogLeft
      head := ((s.train x).liveHead (delay.getD (s.channel c).liveDelay)).getD (s.channel c).head }
    s.played c new { s.queue c with playing := false, session := none }
      (leaveArm (s.channel c).state new.state) (s.cutNotes c .cutShort new cause) s.freeReads := by
  have train : (s.cutProgramme c .cutShort).train x = s.train x := by rw [cutProgramme_eq_played]; rfl
  unfold State.goLive
  simp [train, cutProgramme_commit, Channel.leave, Channel.enter, Channel.jogLeft, State.cutNotes,
    State.changeReport]

theorem liveOn_plays {s : State} {c : ChannelId} {delay : Option Nat} {cause : Cause}
    (h : (s.channel c).state ≠ .following) : (liveOn c delay cause s).leads State.Plays s := by
  unfold liveOn
  split
  · trivial
  · split
    · trivial
    · exact ⟨c, playsOn_cut_enter _ _ h (by decide) (by decide) (by decide) (by simp) (by simp)⟩

/-! ## What the transport commands and the settings leave -/

theorem loadClip_plays (a : LoadClipArgs) (s : State) : (loadClip a s).leads State.Plays s := by
  refine leads_onChannel fun c => ?_
  split
  · exact leads_ungangedOn fun h => loadClipOn_plays h
  · trivial

theorem selectTrain_plays (a : ChannelTrainArgs) (s : State) : (selectTrain a s).leads State.Plays s := by
  refine leads_onChannel fun c => ?_
  split
  · exact leads_ungangedOn fun h => selectTrainOn_plays h
  · trivial

theorem unload_plays (b : Byte) (s : State) : (unload b s).leads State.Plays s :=
  leads_onChannel fun _ => leads_ungangedOn fun h => unloadOn_plays h

theorem play_plays (a : PlayArgs) (s : State) : (play a s).leads State.Plays s := by
  refine leads_onChannel fun c => leads_ungangedOn fun h => playOn_plays (fun v hv => ?_) h
  obtain ⟨w, -, rfl⟩ := Option.map_eq_some_iff.mp hv
  exact clampSpeed_range _

theorem setSpeed_plays (a : ChannelWordArgs) (s : State) : (setSpeed a s).leads State.Plays s :=
  leads_onChannel fun _ => leads_ungangedOn fun _ => setSpeedOn_plays (clampSpeed_range _)

theorem pause_plays (b : Byte) (s : State) : (pause b s).leads State.Plays s :=
  leads_onChannel fun _ => leads_ungangedOn fun h => pauseOn_plays h

theorem goto_plays (a : GotoArgs) (s : State) : (goto a s).leads State.Plays s :=
  leads_onChannel fun _ => leads_ite (leads_ungangedOn fun h => gotoOn_plays h) trivial

theorem live_plays (a : LiveArgs) (s : State) : (live a s).leads State.Plays s := by
  refine leads_onChannel fun c => ?_
  split
  · exact leads_ungangedOn fun h => liveOn_plays h
  · split
    · trivial
    · exact leads_ungangedOn fun h => liveOn_plays h

theorem setAccel_plays (a : ChannelWordArgs) (s : State) : (setAccel a s).leads State.Plays s := by
  refine leads_onChannel fun c => ?_
  split
  · next ok =>
    refine ⟨c, playsOn_setChannel ⟨id, fun law => ?_, fun law => law.2.2.1 c, fun _ => Iff.rfl,
      fun _ _ => ⟨rfl, rfl⟩, fun _ => Iff.rfl, fun _ => rfl,
      fun law => law c, by simp⟩⟩
    obtain ⟨speed, target, -, -⟩ := law.1 c
    exact ⟨speed, target, ok⟩
  · trivial

/-- A setting that is none of the laws' business. -/
theorem setting_plays {s : State} {c : ChannelId} {f : Channel → Channel}
    (state : (f (s.channel c)).state = (s.channel c).state) (source : (f (s.channel c)).source = (s.channel c).source)
    (role : (f (s.channel c)).role = (s.channel c).role) (speed : (f (s.channel c)).speed = (s.channel c).speed)
    (target : (f (s.channel c)).target = (s.channel c).target)
    (accel : (f (s.channel c)).accel = (s.channel c).accel) : (s.setting c f).leads State.Plays s :=
  ⟨c, playsOn_setChannel (permits_of_kept state source role speed target accel)⟩

theorem setBlend_plays (a : SetBlendArgs) (s : State) : (setBlend a s).leads State.Plays s :=
  leads_onChannel fun _ => setting_plays rfl rfl rfl rfl rfl rfl

theorem setEndAction_plays (a : SetEndActionArgs) (s : State) : (setEndAction a s).leads State.Plays s :=
  leads_onChannel fun _ => setting_plays rfl rfl rfl rfl rfl rfl

theorem setTargetBank_plays (a : ChannelByteArgs) (s : State) : (setTargetBank a s).leads State.Plays s := by
  refine leads_onChannel fun c => ?_
  split
  · exact setting_plays rfl rfl rfl rfl rfl rfl
  · trivial

theorem setAngleGroup_plays (a : AngleGroupArgs) (s : State) : (setAngleGroup a s).leads State.Plays s := by
  refine leads_onChannel fun c => ?_
  split
  · split
    · exact setting_plays rfl rfl rfl rfl rfl rfl
    · trivial
  · trivial

end Sys2Proof.Machine
end

section
/-! What the transport commands and the channel settings are answered (R71 to R80, R92, R93). -/

namespace Sys2Proof.Machine

/-! ## Fields -/

theorem trainOf_eq_none {b : Byte} (h : 16 ≤ b.toNat) : trainOf b = none := by
  simp [trainOf, h]

theorem clipIdOf_eq_some {w : Half} (h : w.toNat < 1024) : clipIdOf w = some w.toNat := if_pos h

theorem clipIdOf_eq_none {w : Half} (h : 1024 ≤ w.toNat) : clipIdOf w = none := if_neg (by omega)

theorem angleIndexOf_eq_some {b : Byte} (h : b.toNat < 8) : angleIndexOf b = some b.toNat := if_pos h

theorem angleIndexOf_eq_none {b : Byte} (h : 8 ≤ b.toNat) : angleIndexOf b = none := if_neg (by omega)

theorem optAngleIndexOf_eq_some {o : Option Byte} (h : ∀ i, o = some i → i.toNat < 8) :
    optAngleIndexOf o = some (o.map (·.toNat)) := by
  cases o with
  | none => rfl
  | some b => exact congrArg (Option.map some) (angleIndexOf_eq_some (h b rfl))

theorem bankOf_eq_some {b : Byte} {n : Fin 16} (h : b.toNat = n.val) : bankOf b = some n := by
  simp [bankOf, h]

theorem bankOf_eq_none {b : Byte} (h : 16 ≤ b.toNat) : bankOf b = none := by
  simp [bankOf, h]

theorem ungangedOn_eq {c : ChannelId} {s : State} (f : State → Verdict) (h : (s.channel c).state ≠ .following) :
    ungangedOn c f s = f s := if_neg h

theorem ungangedOn_following {c : ChannelId} {s : State} (f : State → Verdict)
    (h : (s.channel c).state = .following) : ungangedOn c f s = .refuse .ganged := if_pos h

theorem clipOf_id {s : State} {id : Nat} {k : Clip} (h : s.clipOf id = some k) : k.id = id := by
  simpa using List.find?_some h

theorem angleOf_of_clipOf {s : State} {id : Nat} {k : Clip} (h : s.clipOf id = some k) (i : Nat) :
    s.angleOf id i = k.angles[i]? := by
  simp [State.angleOf, h]

theorem presentAngle_eq_some {s : State} {id i : Nat} {k : Clip} {g : Angle} (h : s.clipOf id = some k)
    (hk : k.state ≠ .lost) (hg : k.angles[i]? = some g) (hp : g.present = true) : s.presentAngle id i = some g := by
  simp [State.presentAngle, h, hk, hg, hp]

theorem presentAngle_eq_none {s : State} {id i : Nat} {k : Clip} (h : s.clipOf id = some k)
    (hk : k.state = .lost ∨ ∀ g, k.angles[i]? = some g → g.present = false) : s.presentAngle id i = none := by
  unfold State.presentAngle
  rw [h]
  rcases hk with hk | hk
  · simp [hk]
  · cases hg : k.angles[i]? with
    | none => simp [hg]
    | some g => simp [hg, hk g hg]

/-! ## Settings -/

theorem trainsOf_eq_some {bs : List Byte} {xs : List TrainId} (h : bs.map (·.toNat) = xs.map (·.val)) :
    trainsOf bs = some xs := by
  induction bs generalizing xs with
  | nil => cases xs with
    | nil => rfl
    | cons x rest => simp at h
  | cons b rest ih => cases xs with
    | nil => simp at h
    | cons x more =>
      simp only [List.map_cons, List.cons.injEq] at h
      simp [trainsOf, trainOf_eq_some h.1, ih h.2]

/-- A list of bytes that names trains names them byte by byte. -/
theorem trainsOf_some {bs : List Byte} {xs : List TrainId} (h : trainsOf bs = some xs) :
    bs.map (·.toNat) = xs.map (·.val) := by
  induction bs generalizing xs with
  | nil => obtain rfl := Option.some.inj h; rfl
  | cons b rest ih =>
    unfold trainsOf at h
    split at h
    · next x more hx hm =>
      obtain rfl := Option.some.inj h
      have hb : b.toNat = x.val := by
        unfold trainOf at hx
        split at hx
        · exact congrArg Fin.val (Option.some.inj hx)
        · cases hx
      simp [hb, ih hm]
    · cases h

theorem setAngleGroup_refuses {a : AngleGroupArgs} {c : ChannelId} {s : State} (hc : a.channel.toNat = c.val)
    (bad : 8 < a.trains.length ∨ (∃ b ∈ a.trains, 16 ≤ b.toNat) ∨ ¬a.trains.Nodup) :
    setAngleGroup a s = .refuse .badValue := by
  unfold setAngleGroup
  rw [onChannel_of_named hc]
  cases h : trainsOf a.trains with
  | none => rfl
  | some xs =>
    have same := trainsOf_some h
    have length : a.trains.length = xs.length := by simpa using congrArg List.length same
    refine if_neg fun ok => ?_
    rcases bad with long | ⟨b, hb, high⟩ | twice
    · omega
    · have : b.toNat ∈ xs.map (·.val) := same ▸ List.mem_map_of_mem hb
      obtain ⟨x, -, hx⟩ := List.mem_map.mp this
      omega
    · refine twice (List.Nodup.of_map (·.toNat) ?_)
      rw [same]
      exact ok.2.map Fin.val_injective

/-- Settles O27: each setting writes its field of the channel's record, or its range check refuses it. -/
theorem channelSettings : Obligations.ChannelSettings := by
  intro tag c u s
  refine ⟨fun a hc ht => ⟨fun ok => ?_, fun bad => ?_⟩, fun a hc ht => ?_,
    fun ht => command_badByte ht .., fun a hc ht => ?_, fun ht => command_badByte ht .., fun a hc ht => ⟨fun b hb => ?_, fun bad => ?_⟩,
    fun a hc ht => ⟨fun xs hx short distinct => ?_, fun bad => ?_⟩⟩
  · refine accepted_of_done (f := setAccel) rfl ht ((onChannel_of_named hc _ s).trans (if_pos ok))
  · exact turnedAway_of_refuse (f := setAccel) rfl ht
      ((onChannel_of_named hc _ s).trans (if_neg fun ok => by simp only [Config.maxSpeed] at ok; omega))
  · exact accepted_of_done (f := setBlend) rfl ht (onChannel_of_named hc _ s)
  · exact accepted_of_done (f := setEndAction) rfl ht (onChannel_of_named hc _ s)
  · exact accepted_of_done (f := setTargetBank) rfl ht
      ((onChannel_of_named hc _ s).trans (by rw [bankOf_eq_some hb]; rfl))
  · exact turnedAway_of_refuse (f := setTargetBank) rfl ht
      ((onChannel_of_named hc _ s).trans (by rw [bankOf_eq_none bad]))
  · exact accepted_of_done (f := setAngleGroup) rfl ht
      ((onChannel_of_named hc _ s).trans (by rw [trainsOf_eq_some hx]; exact if_pos ⟨short, distinct⟩))
  · exact turnedAway_of_refuse (f := setAngleGroup) rfl ht (setAngleGroup_refuses hc bad)

/-! ## LOAD_CLIP, SELECT_TRAIN and UNLOAD -/

section load

variable {tag : Byte} {a : LoadClipArgs} {c : ChannelId} {u s : State}

/-- LOAD_CLIP with its fields in range, on a channel that is not in FOLLOWING. -/
theorem loadClip_eq (hc : a.channel.toNat = c.val) (hid : a.clip.toNat < 1024)
    (hi : ∀ i, a.angle = some i → i.toNat < 8) (hf : (s.channel c).state ≠ .following) :
    loadClip a s = loadClipOn c a.clip.toNat (a.angle.map (·.toNat)) s := by
  unfold loadClip
  rw [onChannel_of_named hc, clipIdOf_eq_some hid, optAngleIndexOf_eq_some hi]
  exact ungangedOn_eq _ hf

theorem loadClip_badValue (hc : a.channel.toNat = c.val)
    (bad : 1024 ≤ a.clip.toNat ∨ ∃ i, a.angle = some i ∧ 8 ≤ i.toNat) : loadClip a s = .refuse .badValue := by
  unfold loadClip
  rw [onChannel_of_named hc]
  rcases bad with h | ⟨i, hi, h⟩
  · rw [clipIdOf_eq_none h]
  · have none : optAngleIndexOf a.angle = none := by
      rw [hi]
      exact congrArg (Option.map some) (angleIndexOf_eq_none h)
    rw [none]
    cases clipIdOf a.clip <;> rfl

theorem loadClipOn_done {id i : Nat} {angle : Option Nat} {k : Clip} {g : Angle} (hk : s.clipOf id = some k)
    (hl : k.state ≠ .lost) (hi : i = angle.getD k.primary) (hg : k.angles[i]? = some g) (hp : g.present = true) :
    loadClipOn c id angle s = (s.loadClip c id i g).transportDone c := by
  subst hi
  unfold loadClipOn
  rw [hk]
  dsimp only
  rw [presentAngle_eq_some hk hl hg hp]

theorem loadClipOn_absent {id : Nat} {angle : Option Nat} {k : Clip} (hk : s.clipOf id = some k)
    (hl : k.state = .lost ∨ ∀ g, k.angles[angle.getD k.primary]? = some g → g.present = false) :
    loadClipOn c id angle s = .refuse .notFound := by
  unfold loadClipOn
  rw [hk]
  dsimp only
  rw [presentAngle_eq_none hk hl]

end load

/-- A head on a train that holds a frame, in LIVE (R58). -/
theorem liveHead_eq {t : Train} {oldest edge : Nat} (ho : t.oldestEdge = some oldest) (he : t.recordEdge = some edge)
    (delay : Nat) :
    t.liveHead delay = some ((if edge < oldest + delay then oldest else edge - delay) * 1200) := by
  unfold Train.liveHead
  rw [ho, he]
  simp only [Config.sfu, Option.some.injEq]
  congr 1
  exact if_congr (by omega) rfl rfl

theorem mapFrom_found {s : State} {c : ChannelId} {x y : TrainId} {h : Nat} (hi : (s.channel c).state ≠ .idle)
    (hy : s.sourceTrain (s.channel c).source = some y) (hm : s.mapHead y x (s.channel c).head = .found h) :
    s.mapFrom c x = .ok h := by
  unfold State.mapFrom
  simp [hi, hy, hm]

theorem selectedHead_failed {s : State} {c : ChannelId} {x y : TrainId} (edge : Nat)
    (hy : s.sourceTrain (s.channel c).source = some y)
    (hm : s.mapHead y x (s.channel c).head = .untimed ∨ s.mapHead y x (s.channel c).head = .notFound) :
    s.selectedHead c x edge = edge * 1200 := by
  unfold State.selectedHead State.mapFrom
  rcases hm with hm | hm <;> by_cases hi : (s.channel c).state = .idle <;> simp [hi, hy, hm, Config.sfu]

theorem selectTrain_eq {a : ChannelTrainArgs} {c : ChannelId} {x : TrainId} {s : State}
    (hc : a.channel.toNat = c.val) (hx : a.train.toNat = x.val) (hf : (s.channel c).state ≠ .following) :
    selectTrain a s = selectTrainOn c x s := by
  unfold selectTrain
  rw [onChannel_of_named hc, trainOf_eq_some hx]
  exact ungangedOn_eq _ hf

/-- The reports of a programme cut, for the record the cut leaves. -/
theorem played_raised_cut_self {s : State} {c : ChannelId} {new : Channel} {q : PlayQueue} {f : ArmState → ArmState}
    {free : Nat} {cause : Cause} (h : s.runLog.entries.length ≤ 256) :
    let t := s.played c new q f (s.cutNotes c .cutShort new cause) free
    s.raised t (s.cutReports c (t.channel c) cause) := by
  dsimp only
  rw [played_channel_self]
  exact played_raised_cut h

/-- Settles O24: the checks in their order, and each accepted command's normal form. -/
theorem loadSelectAndUnload : Obligations.LoadSelectAndUnload := by
  refine ⟨⟨fun tag a c u s hc bad ht => ?_, fun tag a c u s hc hid hi ht hf => ⟨fun none => ?_,
    fun k hk => ⟨fun absent => ?_, fun g hl hg hp => ?_⟩⟩⟩, ⟨fun tag a c u s hc bad ht => ?_,
    fun tag a c x u s hc hx ht hf => ⟨fun empty => ?_, fun edge he => ?_⟩, fun tag b c u s hc ht => ⟨fun idle => ?_,
    fun idle hf => ?_⟩⟩⟩
  · exact turnedAway_of_refuse (f := loadClip) rfl ht (loadClip_badValue hc bad)
  · refine turnedAway_of_refuse (f := loadClip) rfl ht ((loadClip_eq hc hid hi hf).trans ?_)
    unfold loadClipOn
    rw [none]
  · exact turnedAway_of_refuse (f := loadClip) rfl ht ((loadClip_eq hc hid hi hf).trans (loadClipOn_absent hk absent))
  · have angle := (angleOf_of_clipOf hk _).trans hg
    have done := (loadClip_eq hc hid hi hf).trans (loadClipOn_done hk hl rfl hg hp)
    rw [loadClip_eq_played c angle] at done
    exact ⟨_, accepted_of_done (f := loadClip) rfl ht done, played_channelFrame, played_channel_self ..,
      played_programmeCut rfl rfl, played_raised_cut_self,
      congrArg PlayQueue.session (played_queue_self ..)⟩
  · refine turnedAway_of_refuse (f := selectTrain) rfl ht ((onChannel_of_named hc _ s).trans ?_)
    rw [trainOf_eq_none bad]
  · refine turnedAway_of_refuse (f := selectTrain) rfl ht ((selectTrain_eq hc hx hf).trans ?_)
    unfold selectTrainOn
    rw [empty]
  · have done : selectTrain a s = (s.selectTrain c x edge).transportDone c := by
      rw [selectTrain_eq hc hx hf]
      unfold selectTrainOn
      rw [he]
    by_cases hl : (s.channel c).state = .live
    · rw [selectTrain_live_eq_played x edge hl] at done
      refine ⟨_, accepted_of_done (f := selectTrain) rfl ht done, played_channelFrame, played_programmeCut rfl rfl,
      played_raised_cut_self,
        congrArg PlayQueue.session (played_queue_self ..), fun h => absurd hl h, fun oldest _ ho => ?_⟩
      rw [played_channel_self, liveHead_eq ho he]
      rfl
    · rw [selectTrain_eq_played x edge hl] at done
      refine ⟨_, accepted_of_done (f := selectTrain) rfl ht done, played_channelFrame, played_programmeCut rfl rfl,
      played_raised_cut_self,
        congrArg PlayQueue.session (played_queue_self ..), fun _ => ⟨_, played_channel_self .., fun idle => ?_,
        fun y idle hy => ⟨fun h hm => ?_, selectedHead_failed edge hy⟩⟩, fun _ h => absurd h hl⟩
      · simp [State.selectedHead, State.mapFrom, idle, Config.sfu]
      · simp [State.selectedHead, mapFrom_found idle hy hm]
  · exact accepted_of_done (f := unload) rfl ht ((onChannel_of_named hc _ s).trans
      ((ungangedOn_eq _ (by simp [idle])).trans (if_pos idle)))
  · have done : unload b s = (s.unloadChannel c .command .cutShort).transportDone c :=
      (onChannel_of_named hc _ s).trans ((ungangedOn_eq _ hf).trans (if_neg idle))
    rw [unloadChannel_eq_played] at done
    exact ⟨_, accepted_of_done (f := unload) rfl ht done, played_channelFrame, played_channel_self ..,
      played_programmeCut rfl rfl, played_raised_cut_self,
      congrArg PlayQueue.session (played_queue_self ..)⟩

/-! ## PLAY, SET_SPEED and PAUSE -/

section target

variable {s : State} {c : ChannelId}

/-- In queue play PLAY takes the speed of the entry being played (R76, case 2). -/
theorem playTarget_queue {e : QueueEntry} {rest : List QueueEntry} (hp : (s.queue c).playing = true)
    (he : (s.queue c).entries = e :: rest) :
    s.playTarget c none = e.speed.getD (((s.clipOf e.clip).bind (·.speed)).getD 1200) := by
  have speed : s.queueSpeed c = some (s.entrySpeed e) := by simp [State.queueSpeed, hp, he]
  unfold State.playTarget
  rw [speed]
  unfold State.entrySpeed
  cases e.speed <;> rfl

theorem queueSpeed_off (hp : (s.queue c).playing = false) : s.queueSpeed c = none := by
  simp [State.queueSpeed, hp]

/-- With a bounce context PLAY takes the leg's speed (R76, case 3). -/
theorem playTarget_bounce {id i : Nat} {b : Bounce} (hp : (s.queue c).playing = false)
    (hs : (s.channel c).source = .clip id i) (hb : (s.channel c).bounce = some b) :
    let set := (s.clipOf id).bind (·.bounce)
    s.playTarget c none = if b.direction = .forward then (set.map (·.forwardSpeed)).getD 1200
      else -((set.map (·.reverseSpeed)).getD 1200) := by
  have speeds : s.bounceSpeeds (.clip id i) =
      ((((s.clipOf id).bind (·.bounce)).map (·.forwardSpeed)).getD 1200,
        (((s.clipOf id).bind (·.bounce)).map (·.reverseSpeed)).getD 1200) := by
    unfold State.bounceSpeeds
    dsimp only
    cases (s.clipOf id).bind (·.bounce) <;> rfl
  unfold State.playTarget
  rw [queueSpeed_off hp]
  unfold State.bounceSpeed
  simp only [hs, hb, speeds]
  cases b.direction <;> rfl

/-- Without one PLAY takes the clip's play speed (R76, case 4). -/
theorem playTarget_clip {id i : Nat} (hp : (s.queue c).playing = false) (hs : (s.channel c).source = .clip id i)
    (hb : (s.channel c).bounce = none) : s.playTarget c none = ((s.clipOf id).bind (·.speed)).getD 1200 := by
  simp [State.playTarget, queueSpeed_off hp, State.bounceSpeed, State.clipSpeed, hs, hb]

/-- On a train PLAY takes 1200 (R76). -/
theorem playTarget_train {x : TrainId} (hp : (s.queue c).playing = false) (hs : (s.channel c).source = .train x) :
    s.playTarget c none = 1200 := by
  simp [State.playTarget, queueSpeed_off hp, State.bounceSpeed, State.clipSpeed, hs]

/-- The target of a PLAY with this speed field, case by case (R76). -/
theorem playTarget_cases (s : State) (c : ChannelId) (given : Option Word) :
    let v := s.playTarget c (given.map speedOf)
    (∀ w, given = some w → v = max (-38400) (min w.toInt 38400)) ∧
    (∀ e rest, given = none → (s.queue c).playing = true → (s.queue c).entries = e :: rest →
      v = e.speed.getD (((s.clipOf e.clip).bind (·.speed)).getD 1200)) ∧
    (∀ id i b, given = none → (s.queue c).playing = false → (s.channel c).source = .clip id i →
      (s.channel c).bounce = some b →
      let set := (s.clipOf id).bind (·.bounce)
      v = if b.direction = .forward then (set.map (·.forwardSpeed)).getD 1200
        else -((set.map (·.reverseSpeed)).getD 1200)) ∧
    (∀ id i, given = none → (s.queue c).playing = false → (s.channel c).source = .clip id i →
      (s.channel c).bounce = none → v = ((s.clipOf id).bind (·.speed)).getD 1200) ∧
    (∀ x, given = none → (s.queue c).playing = false → (s.channel c).source = .train x → v = 1200) := by
  refine ⟨?_, ?_, ?_, ?_, ?_⟩
  · rintro w rfl; rfl
  · rintro e rest rfl hp he; exact playTarget_queue hp he
  · rintro id i b rfl hp hs hb; exact playTarget_bounce hp hs hb
  · rintro id i rfl hp hs hb; exact playTarget_clip hp hs hb
  · rintro x rfl hp hs; exact playTarget_train hp hs

theorem freshBounce_clip (id i : Nat) (v : Int) : s.freshBounce (.clip id i) v = some
    { direction := if 0 ≤ v then .forward else .reverse
      passes := ((s.clipOf id).bind (·.bounce)).bind fun b => if b.passes = 0 then none else some b.passes } := by
  unfold State.freshBounce
  dsimp only
  cases (s.clipOf id).bind (·.bounce) <;> rfl

end target

section accepted

variable {i : Instr} {kind tag b : Byte} {f : ChannelId → State → Verdict} {c : ChannelId} {u s t : State}

/-- A transport command on a channel that is not in FOLLOWING is answered with what its operation leaves. -/
theorem accepted_transport {α : Type} {a : α} {block : α → State → Verdict}
    (row : exec i u = command i kind tag (.fields a) block u) (ht : u.takes i s)
    (done : block a s = t.transportDone c) : Accepted i kind tag u t (.transport (t.transport c)) :=
  accepted_of_done row ht done

end accepted

/-- The verdict of PLAY on a channel that is neither IDLE nor in FOLLOWING. -/
theorem play_done {a : PlayArgs} {c : ChannelId} {s : State} (hc : a.channel.toNat = c.val)
    (hf : (s.channel c).state ≠ .following) (hi : (s.channel c).state ≠ .idle) :
    play a s = (s.play c (a.speed.map speedOf) .command).transportDone c :=
  (onChannel_of_named hc _ s).trans ((ungangedOn_eq _ hf).trans (if_neg hi))

theorem play_playing_eq {s : State} {c : ChannelId} (given : Option Int) (cause : Cause)
    (h : (s.channel c).state = .playing) :
    s.play c given cause = s.setChannel c { s.channel c with target := s.playTarget c given } := by
  unfold State.play
  simp only [if_pos h]

theorem changeReport_kept {s : State} {c : ChannelId} {new : Channel} (cause : Cause)
    (state : new.state = (s.channel c).state) (source : new.source = (s.channel c).source) :
    s.changeReport c new cause = [] := if_pos ⟨state.symm, source.symm⟩

/-- Where neither the state nor the source changes nothing is reported (R70). -/
theorem raised_of_kept {s t : State} {c : ChannelId} {new : Channel} {cause : Cause}
    (state : new.state = (s.channel c).state) (source : new.source = (s.channel c).source)
    (reports : t.reports = s.reports) : s.raised t (s.changeReport c new cause) := by
  rw [changeReport_kept cause state source]
  exact reports

theorem played_reports_of_kept {s : State} {c : ChannelId} {new : Channel} {q : PlayQueue}
    {f : ArmState → ArmState} {free : Nat} {cause : Cause} (state : new.state = (s.channel c).state)
    (source : new.source = (s.channel c).source) :
    (s.played c new q f ((s.changeReport c new cause).map .report) free).reports = s.reports := by
  rw [changeReport_kept cause state source]
  rfl

/-- A channel's record written, with its state kept, as the frame of a channel command. -/
theorem setChannel_channelFrame {s : State} {c : ChannelId} {new : Channel}
    (h : new.state = (s.channel c).state) : s.channelFrame (s.setChannel c new) c := by
  have frame := played_channelFrame (s := s) (c := c) (new := new) (q := s.queue c) (notes := [])
  rw [h, leaveArm_self, ← setChannel_eq_played] at frame
  exact frame

/-- A change of one channel alone, as its statement has it. -/
theorem played_change {s : State} {c : ChannelId} {new : Channel} {q : PlayQueue} {f : ArmState → ArmState}
    {free : Nat} {cause : Cause} :
    let t := s.played c new q f ((s.changeReport c new cause).map .report) free
    t.runLog = s.runLog ∧ s.raised t (s.changeReport c (t.channel c) cause) := by
  dsimp only
  rw [played_channel_self]
  exact ⟨played_runLog_of_reports _, played_raised_reports _⟩

theorem opened_session_some {s : State} {q : PlayQueue} {src : Source} {r : Session} (h : q.session = some r) :
    (if q.session.isNone then s.opened src q else q).session = some r := by
  simp [h]

/-- Settles O25: PLAY's target by its cases, and the normal forms of the three commands. -/
theorem playSpeedAndPause : Obligations.PlaySpeedAndPause := by
  refine ⟨fun tag a c u s hc ht hf => ⟨fun idle => ?_, fun idle => ?_⟩, fun tag a c u s hc ht => ⟨fun idle => ?_,
    fun busy => ?_, fun moving => ?_⟩, fun tag b c u s hc ht => ⟨fun idle => ?_, fun cued => ?_, fun moving => ?_⟩⟩
  · exact turnedAway_of_refuse (f := play) rfl ht
      ((onChannel_of_named hc _ s).trans ((ungangedOn_eq _ hf).trans (if_pos idle)))
  · have done := play_done hc hf idle
    obtain ⟨t1, t2, t3, t4, t5⟩ := playTarget_cases s c a.speed
    by_cases hp : (s.channel c).state = .playing
    · rw [play_playing_eq _ _ hp] at done
      refine ⟨_, _, accepted_transport (block := play) rfl ht done, setChannel_channelFrame rfl, rfl, ?_, t1, t2, t3,
        t4, t5, fun _ => rfl, fun h => absurd hp h⟩
      rw [setChannel_channel_self]
      exact raised_of_kept rfl rfl rfl
    · rw [play_eq_played _ _ hp] at done
      refine ⟨_, _, accepted_transport (block := play) rfl ht done, played_channelFrame, played_change.1,
        played_change.2, t1, t2, t3, t4, t5, fun h => absurd h hp, fun _ => ⟨⟨_, played_channel_self .., fun x hx => ?_,
        fun id i hx => ?_⟩, ?_, ?_, fun r hr => ?_, fun id i g hr hx hg => ?_⟩⟩
      · rw [hx]; rfl
      · rw [hx]; exact freshBounce_clip ..
      · rw [played_queue_self]; split <;> simp
      · rw [played_queue_self]; split <;> simp
      · rw [played_queue_self]; exact opened_session_some hr
      · rw [played_queue_self, hr, hx, opened_clip s hg]; rfl
  · exact turnedAway_of_refuse (f := setSpeed) rfl ht ((onChannel_of_named hc _ s).trans
      ((ungangedOn_eq _ (by simp [idle])).trans (by simp [setSpeedOn, idle])))
  · refine turnedAway_of_refuse (f := setSpeed) rfl ht ((onChannel_of_named hc _ s).trans ?_)
    rcases busy with h | h | h <;> exact (ungangedOn_eq _ (by simp [h])).trans (by simp [setSpeedOn, h])
  · refine accepted_transport (block := setSpeed) rfl ht ((onChannel_of_named hc _ s).trans ?_)
    rcases moving with h | h <;> exact (ungangedOn_eq _ (by simp [h])).trans (by simp [setSpeedOn, h]; rfl)
  · exact turnedAway_of_refuse (f := pause) rfl ht ((onChannel_of_named hc _ s).trans
      ((ungangedOn_eq _ (by simp [idle])).trans (by simp [pauseOn, idle])))
  · exact accepted_transport (block := pause) rfl ht ((onChannel_of_named hc _ s).trans
      ((ungangedOn_eq _ (by simp [cued])).trans (by simp [pauseOn, cued])))
  · have done : pause b s = (s.pause c .command).transportDone c := by
      refine (onChannel_of_named hc _ s).trans ?_
      simp only [List.mem_cons, List.not_mem_nil, or_false] at moving
      rcases moving with h | h | h | h <;> exact (ungangedOn_eq _ (by simp [h])).trans (by simp [pauseOn, h])
    rw [pause_eq_played] at done
    exact ⟨_, accepted_transport (block := pause) rfl ht done, played_channelFrame, played_change.1,
      played_queue_self .., played_change.2, played_channel_self ..⟩

/-! ## GOTO and LIVE -/

section goto

variable {a : GotoArgs} {c : ChannelId} {s : State}

/-- One target form, and a valid label (R79). -/
def OneTarget (a : GotoArgs) (s : State) : Prop :=
  (∃ w, a.serial = some w ∧ a.timecode = none) ∨
    ∃ f, a.serial = none ∧ a.timecode = some f ∧ s.timebase.labelValid (labelOf f) = true

theorem goto_eq (hc : a.channel.toNat = c.val) (h : OneTarget a s) :
    goto a s = ungangedOn c (gotoOn c a.serial a.timecode) s := by
  refine (onChannel_of_named hc _ s).trans ?_
  rcases h with ⟨w, hw, hn⟩ | ⟨f, hn, hf, valid⟩
  · simp [hw, hn]
  · simp [hf, hn, valid]

theorem goto_badForm (hc : a.channel.toNat = c.val) (h : a.serial = none ↔ a.timecode = none) :
    goto a s = .refuse .badValue := by
  refine (onChannel_of_named hc _ s).trans ?_
  cases hs : a.serial with
  | none => simp [h.mp hs]
  | some w =>
    cases ht : a.timecode with
    | none => rw [h.mpr ht] at hs; cases hs
    | some f => simp

theorem goto_badLabel {f : TimecodeField} (hc : a.channel.toNat = c.val) (hs : a.serial = none)
    (hf : a.timecode = some f) (bad : s.timebase.labelValid (labelOf f) = false) : goto a s = .refuse .badValue := by
  refine (onChannel_of_named hc _ s).trans ?_
  simp [hs, hf, bad]

/-- GOTO with a target, on a channel that plays something outside FOLLOWING. -/
theorem goto_done {target : Nat} (hc : a.channel.toNat = c.val) (idle : (s.channel c).state ≠ .idle)
    (free : (s.channel c).state ≠ .following)
    (h : (∃ w, a.serial = some w ∧ a.timecode = none ∧ target = w.toNat) ∨
      ∃ f x, a.serial = none ∧ a.timecode = some f ∧ s.timebase.labelValid (labelOf f) = true ∧
        s.sourceTrain (s.channel c).source = some x ∧ f.phase.toNat < (s.train x).multiple ∧
        s.serialAt x (s.timebase.number (labelOf f)) f.phase.toNat = some target) :
    goto a s = (s.gotoSerial c target .command).transportDone c := by
  rcases h with ⟨w, hw, hn, rfl⟩ | ⟨f, x, hn, hf, valid, hx, phase, found⟩
  · rw [goto_eq hc (.inl ⟨w, hw, hn⟩), ungangedOn_eq _ free]
    simp [gotoOn, idle, hw]
  · rw [goto_eq hc (.inr ⟨f, hn, hf, valid⟩), ungangedOn_eq _ free]
    simp [gotoOn, idle, hn, hf, gotoTimecode, hx, found, Nat.not_le.mpr phase]

end goto

/-- Settles O26: the forms of GOTO checked in their order, and the normal forms of GOTO and LIVE. -/
theorem gotoAndLive : Obligations.GotoAndLive := by
  refine ⟨fun tag a c u s hc ht => ⟨fun bad => ?_, fun f hs hf bad => ?_, fun ok idle => ?_,
    fun f x hs hf valid idle free hx => ⟨fun bad => ?_, fun phase lost => ?_⟩, fun target lo hi idle free hb found => ?_⟩,
    fun tag a c u s hc ht => ⟨fun w hw bad => ?_, fun ok idle => ?_, fun x oldest edge ok idle free hx ho he => ?_⟩⟩
  · exact turnedAway_of_refuse (f := goto) rfl ht (goto_badForm hc bad)
  · exact turnedAway_of_refuse (f := goto) rfl ht (goto_badLabel hc hs hf bad)
  · exact turnedAway_of_refuse (f := goto) rfl ht
      ((goto_eq hc ok).trans ((ungangedOn_eq _ (by simp [idle])).trans (if_pos idle)))
  · refine turnedAway_of_refuse (f := goto) rfl ht
      ((goto_eq hc (.inr ⟨f, hs, hf, valid⟩)).trans ((ungangedOn_eq _ free).trans ?_))
    simp [gotoOn, idle, hs, hf, gotoTimecode, hx, bad]
  · refine turnedAway_of_refuse (f := goto) rfl ht
      ((goto_eq hc (.inr ⟨f, hs, hf, valid⟩)).trans ((ungangedOn_eq _ free).trans ?_))
    simp [gotoOn, idle, hs, hf, gotoTimecode, hx, lost, Nat.not_le.mpr phase]
  · have done := goto_done hc idle free found
    by_cases hl : (s.channel c).state = .live
    · rw [gotoSerial_live_eq_played target _ hb hl] at done
      exact ⟨_, accepted_transport (block := goto) rfl ht done, played_channelFrame, played_change.1,
        played_queue_self .., played_change.2, fun h => absurd hl h, fun _ => played_channel_self ..⟩
    · rw [gotoSerial_eq_played target _ hb hl] at done
      refine ⟨_, accepted_transport (block := goto) rfl ht done, played_channelFrame, played_change.1,
        played_queue_self .., played_change.2, fun _ => ⟨played_channel_self .., ?_⟩, fun h => absurd h hl⟩
      exact played_reports_of_kept rfl rfl
  · refine turnedAway_of_refuse (f := live) rfl ht ((onChannel_of_named hc _ s).trans ?_)
    simp [hw, bad]
  · refine turnedAway_of_refuse (f := live) rfl ht ((onChannel_of_named hc _ s).trans ?_)
    cases hd : a.delay with
    | none => exact (ungangedOn_eq _ (by simp [idle])).trans (if_pos idle)
    | some w =>
      have small : ¬1000 < w.toNat := by have := ok w hd; omega
      exact (if_neg small).trans ((ungangedOn_eq _ (by simp [idle])).trans (if_pos idle))
  · have done : live a s = (s.goLive c x (a.delay.map (·.toNat)) .command).transportDone c := by
      refine (onChannel_of_named hc _ s).trans ?_
      cases hd : a.delay with
      | none =>
        refine (ungangedOn_eq _ free).trans ?_
        simp [liveOn, idle, hx]
      | some w =>
        have small : ¬1000 < w.toNat := by have := ok w hd; omega
        refine (if_neg small).trans ((ungangedOn_eq _ free).trans ?_)
        simp [liveOn, idle, hx]
    rw [goLive_eq_played, liveHead_eq ho he] at done
    exact ⟨_, accepted_transport (block := live) rfl ht done, played_channelFrame, played_programmeCut rfl rfl,
      played_raised_cut_self, congrArg PlayQueue.session (played_queue_self ..), played_channel_self ..⟩

end Sys2Proof.Machine
end

section
/-! The queue unit (spec 09): the normal form of queue loads, what the laws ask of them, and what the queue commands are
answered. -/

namespace Sys2Proof.Machine

/-! ## Skipped entries -/

section skip

variable (s : State) (c : ChannelId)

/-- Entries thrown away are logged in order. -/
theorem logSkipped_eq_noted (o : RunOutcome) (angle : QueueEntry → Option Angle) (es : List QueueEntry) :
    s.logSkipped c o angle es = s.noted (es.map fun e => .entry (skippedEntry c e (angle e) o)) := by
  induction es generalizing s with
  | nil => rfl
  | cons e rest ih => exact ih (s.appendRun (skippedEntry c e (angle e) o))

theorem noted_eq_played (l : List Note) :
    s.noted l = s.played c (s.channel c) (s.queue c) id l s.freeReads := by
  rw [noted_eq]
  simp [State.played, State.channel, State.queue]

/-- The entry of a skipped entry's log line, as its statement has it. -/
theorem skippedOn_eq (es : List QueueEntry) :
    (es.map fun e => skippedEntry c e ((s.entryAngle e).bind fun i => s.angleOf e.clip i) .skippedLost) =
      s.skippedOn c es := by
  refine List.map_congr_left fun e _ => ?_
  unfold skippedEntry State.entryAngle State.angleOf
  cases s.clipOf e.clip <;> rfl

/-- Skipping removes the head entries that cannot be loaded and logs them (R169). -/
theorem skip_eq_played : s.skip c = s.played c (s.channel c)
    { s.queue c with entries := (s.queue c).entries.drop (s.unloadable c).length } id
    ((s.skippedOn c (s.unloadable c)).map .entry) s.freeReads := by
  unfold State.skip
  dsimp only
  rw [logSkipped_eq_noted, noted_eq_played _ c, setQueue_eq_played, ← skippedOn_eq]
  simp [Function.comp_def]

end skip

/-! ## Loadable entries -/

theorem loadable_eq_some {s : State} {e : QueueEntry} {i : Nat} {g : Angle} :
    s.loadable e = some (i, g) ↔ s.loads e i g := by
  unfold State.loadable State.entryAngle State.loads
  cases hk : s.clipOf e.clip with
  | none => simp
  | some k =>
    have present : ∀ j, s.presentAngle e.clip j = some g ↔
        k.state ≠ .lost ∧ k.angles[j]? = some g ∧ g.present = true := by
      intro j
      unfold State.presentAngle
      rw [hk]
      by_cases hl : k.state = .lost
      · simp [hl]
      · cases hg : k.angles[j]? with
        | none => simp [hg, hl]
        | some a =>
          cases hp : a.present <;> simp [hg, hl, hp] <;> rintro rfl <;> simp [hp]
    simp only [Option.map_some, Option.bind_some, Option.map_eq_some_iff, Prod.mk.injEq, Option.some.injEq,
      exists_eq_left']
    constructor
    · rintro ⟨a, ha, rfl, rfl⟩
      obtain ⟨hl, hg, hp⟩ := (present _).mp ha
      exact ⟨hl, rfl, hg, hp⟩
    · rintro ⟨hl, rfl, hg, hp⟩
      exact ⟨g, (present _).mpr ⟨hl, hg, hp⟩, rfl, rfl⟩

theorem loadable_isNone {s : State} {e : QueueEntry} : (s.loadable e).isNone = true ↔ ∀ n g, ¬s.loads e n g := by
  cases h : s.loadable e with
  | none => simp only [Option.isNone_none, true_iff]; exact fun n g hl => by simp [loadable_eq_some.mpr hl] at h
  | some r => simpa using ⟨r.1, r.2, loadable_eq_some.mp h⟩

/-- The head entries that cannot be loaded, up to one that can or the end of the queue. -/
theorem takeWhile_unloadable {s : State} {lost rest : List QueueEntry} (hl : ∀ e ∈ lost, ∀ n g, ¬s.loads e n g)
    (hr : ∀ e more, rest = e :: more → ∃ n g, s.loads e n g) :
    (lost ++ rest).takeWhile (fun e => (s.loadable e).isNone) = lost := by
  have skipped : ∀ e ∈ lost, (s.loadable e).isNone = true := fun e he => loadable_isNone.mpr (hl e he)
  rw [List.takeWhile_append_of_pos skipped]
  cases rest with
  | nil => simp
  | cons e more =>
    obtain ⟨n, g, h⟩ := hr e more rfl
    simp [loadable_eq_some.mpr h]

/-! ## Loads and stops -/

section load

variable (s : State) (c : ChannelId)

/-- The channel's record once a queue entry is loaded (R169, R87). -/
def State.loadedChannel (s : State) (c : ChannelId) (e : QueueEntry) (i : Nat) (g : Angle) (cut : Bool) : Channel :=
  { s.channel c with
    state := .playing, source := .clip e.clip i, head := g.inSerial * 1200
    speed := if cut then s.entrySpeed e else 0, target := s.entrySpeed e, edgeHold := false
    jogAcc := (s.channel c).jogLeft, bounce := s.freshBounce (.clip e.clip i) (s.entrySpeed e) }

/-- The channel's record once its queue has run out (R169, R90). -/
def State.stoppedChannel (s : State) (c : ChannelId) : Channel :=
  { s.channel c with
    state := .cued, speed := 0, target := 0, bounce := none, jogAcc := (s.channel c).jogLeft
    edgeHold := if (s.channel c).state = .shuttle then false else (s.channel c).edgeHold }

theorem loadEntry_eq_played (e : QueueEntry) (i : Nat) (g : Angle) (cut : Bool) (cause : Cause) :
    s.loadEntry c e i g cut cause = s.played c (s.loadedChannel c e i g cut)
      (s.opened (.clip e.clip i) { s.queue c with playing := true }) (leaveArm (s.channel c).state .playing)
      ((s.changeReport c (s.loadedChannel c e i g cut) cause).map .report) s.freeReads := by
  unfold State.loadEntry
  simp only [commit_eq_played, openSession_eq_played, setQueue_eq_played, played_played, played_channel_self,
    played_queue_self, played_opened, leave_source]
  have queue : ({ s.opened (.clip e.clip i) (s.queue c) with playing := true } : PlayQueue) =
      s.opened (.clip e.clip i) { s.queue c with playing := true } := by
    unfold State.opened
    dsimp only
    split <;> rfl
  rw [queue]
  simp [Channel.leave, Channel.jogLeft, State.changeReport, State.loadedChannel, Config.sfu]

theorem queueStop_eq_played (cause : Cause) : s.queueStop c cause = s.played c (s.stoppedChannel c)
    { s.queue c with playing := false } (leaveArm (s.channel c).state .cued)
    ((s.changeReport c (s.stoppedChannel c) cause).map .report) s.freeReads := by
  unfold State.queueStop
  simp only [commit_eq_played, endQueuePlay_eq_played]
  simp [Channel.leave, Channel.enter, Channel.jogLeft, State.changeReport, State.stoppedChannel]

end load

/-- A change that is reported after notes made before it is told among them all. -/
theorem told_after {s : State} {c : ChannelId} {q : PlayQueue} {notes : List Note} {free : Nat} {new : Channel}
    (cause : Cause) (h : (s.channel c).state ≠ new.state ∨ (s.channel c).source ≠ new.source) :
    ∃ x serial why, .report (.stateChanged c (s.channel c).state new.state ⟨new.source, x⟩ serial why) ∈
      notes ++ ((s.played c (s.channel c) q id notes free).changeReport c new cause).map .report := by
  obtain ⟨x, serial, why, hm⟩ := changeReport_told (s := s.played c (s.channel c) q id notes free) (c := c)
    (new := new) cause (by simpa using h)
  exact ⟨x, serial, why, List.mem_append_right _ (List.mem_map_of_mem (by simpa using hm))⟩

/-- What a queue load needs of the state the laws hold in, for the state it is made on. -/
theorem playsOn_loadEntry {s : State} {c : ChannelId} {q : PlayQueue} {notes : List Note} {free : Nat} {e : QueueEntry}
    {rest : List QueueEntry} {i : Nat} {g : Angle} {cut : Bool} {cause : Cause}
    (before : s.gangLaw → (s.channel c).state ≠ .following) (entries : q.entries = e :: rest)
    (sub : ∀ d ∈ q.entries, d ∈ (s.queue c).entries) (short : q.entries.length ≤ (s.queue c).entries.length) :
    s.PlaysOn ((s.played c (s.channel c) q id notes free).loadEntry c e i g cut cause) c := by
  refine ⟨_, _, _, _, _, by rw [loadEntry_eq_played, played_played], ?_⟩
  have loaded : (s.played c (s.channel c) q id notes free).loadedChannel c e i g cut = s.loadedChannel c e i g cut := by
    simp [State.loadedChannel]
  have named : e ∈ (s.queue c).entries := sub e (by simp [entries])
  simp only [loaded, played_opened, played_queue_self]
  exact {
    fits := fun _ => trivial
    range := fun law => by
      have speed := entrySpeed_range law named
      refine ⟨?_, speed, (law.1 c).2.2⟩
      show inSpeedRange (if cut then s.entrySpeed e else 0)
      split
      · exact speed
      · simp [inSpeedRange]
    entries := fun law d hd => law.2.2.1 c d (sub d (by simpa using hd))
    following := fun law => iff_of_false (by simp [State.loadedChannel]) (before law)
    ganged := fun law h => absurd h (before law)
    leader := fun _ => Iff.rfl
    follower := fun _ => rfl
    queue := fun law => ⟨by simpa using short.trans (law c).1, fun _ => ⟨e, rest, i, by simpa using entries, rfl⟩⟩
    told := told_after cause }

theorem playsOn_queueStop {s : State} {c : ChannelId} {q : PlayQueue} {notes : List Note} {free : Nat} {cause : Cause}
    (before : s.gangLaw → (s.channel c).state ≠ .following)
    (sub : ∀ d ∈ q.entries, d ∈ (s.queue c).entries) (short : q.entries.length ≤ (s.queue c).entries.length) :
    s.PlaysOn ((s.played c (s.channel c) q id notes free).queueStop c cause) c := by
  refine ⟨_, _, _, _, _, by rw [queueStop_eq_played, played_played], ?_⟩
  have stopped : (s.played c (s.channel c) q id notes free).stoppedChannel c = s.stoppedChannel c := by
    simp [State.stoppedChannel]
  simp only [stopped, played_queue_self]
  exact {
    fits := fun _ => by simp [State.stoppedChannel, Channel.speedsFit]
    range := fun law => ⟨by simp [State.stoppedChannel, inSpeedRange], by simp [State.stoppedChannel, inSpeedRange],
      (law.1 c).2.2⟩
    entries := fun law d hd => law.2.2.1 c d (sub d hd)
    following := fun law => iff_of_false (by simp [State.stoppedChannel]) (before law)
    ganged := fun law h => absurd h (before law)
    leader := fun _ => Iff.rfl
    follower := fun _ => rfl
    queue := fun law => ⟨short.trans (law c).1, fun h => by cases h⟩
    told := told_after cause }

/-! ## Queue loads -/

section loads

variable {s : State} {c : ChannelId} {q : PlayQueue} {notes : List Note} {free : Nat}

/-- A queue as skipping leaves it, on a state that differs in notes and the queue alone. -/
theorem skip_played : (s.played c (s.channel c) q id notes free).skip c =
    let lost := q.entries.takeWhile fun e => (s.loadable e).isNone
    s.played c (s.channel c) { q with entries := q.entries.drop lost.length } id
      (notes ++ (s.skippedOn c lost).map .entry) free := by
  have lost : (s.played c (s.channel c) q id notes free).unloadable c =
      q.entries.takeWhile fun e => (s.loadable e).isNone := by
    simp [State.unloadable]
  rw [skip_eq_played, lost]
  simp [State.skippedOn]

theorem headEntry_played : (s.played c (s.channel c) q id notes free).headEntry c =
    q.entries.head?.bind fun e => (s.loadable e).map fun ia => (e, ia.1, ia.2) := by
  simp [State.headEntry]

theorem headEntry_some {e : QueueEntry} {i : Nat} {g : Angle}
    (h : (s.played c (s.channel c) q id notes free).headEntry c = some (e, i, g)) :
    (∃ rest, q.entries = e :: rest) ∧ s.loads e i g := by
  rw [headEntry_played] at h
  obtain ⟨d, hd, h⟩ := Option.bind_eq_some_iff.mp h
  obtain ⟨⟨j, a⟩, hl, h⟩ := Option.map_eq_some_iff.mp h
  simp only [Prod.mk.injEq] at h
  obtain ⟨rfl, rfl, rfl⟩ := h
  exact ⟨⟨_, (List.cons_head?_tail hd).symm⟩, loadable_eq_some.mp hl⟩

theorem playsOn_cutToNext {load stop : Cause} (before : s.gangLaw → (s.channel c).state ≠ .following)
    (sub : ∀ d ∈ q.entries, d ∈ (s.queue c).entries) (short : q.entries.length ≤ (s.queue c).entries.length) :
    s.PlaysOn ((s.played c (s.channel c) q id notes free).cutToNext c load stop).state c := by
  have sub' : ∀ k, ∀ d ∈ q.entries.drop k, d ∈ (s.queue c).entries := fun k d hd => sub d (List.mem_of_mem_drop hd)
  have short' : ∀ k, (q.entries.drop k).length ≤ (s.queue c).entries.length := fun k => by
    rw [List.length_drop]; omega
  unfold State.cutToNext
  simp only [skip_played]
  split
  · next e i g hh =>
    obtain ⟨⟨rest, entries⟩, -⟩ := headEntry_some hh
    exact playsOn_loadEntry before entries (sub' _) (short' _)
  · exact playsOn_queueStop before (sub' _) (short' _)

theorem endSession_dropHead_eq_played (s : State) (c : ChannelId) (o : RunOutcome) :
    (s.endSession c o none).dropHead c = s.played c (s.channel c)
      { s.queue c with entries := (s.queue c).entries.drop 1, session := none } id ((s.endedOn o [c]).map .entry)
      s.freeReads := by
  unfold State.dropHead
  rw [setQueue_eq_played, endSession_none_eq_played]
  simp

theorem playsOn_nextInPlay {cause : Cause} (before : s.gangLaw → (s.channel c).state ≠ .following) :
    s.PlaysOn (s.nextInPlay c cause).state c := by
  unfold State.nextInPlay
  rw [endSession_dropHead_eq_played]
  exact playsOn_cutToNext before (fun d hd => List.mem_of_mem_drop hd) (by simp)

/-- Ending the session after other notes. -/
theorem endSession_played (o : RunOutcome) :
    (s.played c (s.channel c) q id notes free).endSession c o none = s.played c (s.channel c)
      { q with session := none } id
      (notes ++ (q.session.toList.map fun r =>
        .entry ⟨c, r.clip, r.train, o, r.firstCount, r.lastCount, r.presented⟩)) free := by
  rw [endSession_none_eq_played]
  simp [State.endedOn, Function.comp_def]

theorem playsOn_startQueue {cause : Cause} (before : s.gangLaw → (s.channel c).state ≠ .following) :
    s.PlaysOn (s.startQueue c cause).state c := by
  have sub : ∀ d ∈ (s.queue c).entries.drop (s.unloadable c).length, d ∈ (s.queue c).entries :=
    fun d hd => List.mem_of_mem_drop hd
  have short : ((s.queue c).entries.drop (s.unloadable c).length).length ≤ (s.queue c).entries.length := by
    rw [List.length_drop]; omega
  unfold State.startQueue
  simp only [skip_eq_played, endSession_played, played_queue_self]
  split
  · next e i g hh =>
    obtain ⟨⟨rest, entries⟩, -⟩ := headEntry_some hh
    exact playsOn_loadEntry before entries sub short
  · split
    · exact playsOn_queueStop before sub short
    · next off =>
      exact ⟨_, _, _, _, _, rfl, {
        fits := id
        range := fun law => law.1 c
        entries := fun law d hd => law.2.2.1 c d (sub d hd)
        following := fun _ => Iff.rfl
        ganged := fun _ _ => ⟨rfl, rfl⟩
        leader := fun _ => Iff.rfl
        follower := fun _ => rfl
        queue := fun law => ⟨short.trans (law c).1, fun on => absurd on off⟩
        told := fun h => by simp at h }⟩

end loads

/-! ## What the queue commands leave -/

theorem verdict_plays {s : State} {c : ChannelId} {o : LoadOutcome} (h : s.PlaysOn o.state c) :
    (o.verdict c).leads State.Plays s := ⟨c, h⟩

theorem queueStartOn_plays (c : ChannelId) (cause : Cause) (s : State) :
    (queueStartOn c cause s).leads State.Plays s := by
  unfold queueStartOn
  split
  · trivial
  · next free =>
    split
    · trivial
    · exact verdict_plays (playsOn_startQueue fun _ => free)

theorem queueNextOn_plays (c : ChannelId) (cause : Cause) (s : State) :
    (queueNextOn c cause s).leads State.Plays s := by
  unfold queueNextOn
  split
  · trivial
  · next free =>
    split
    · exact verdict_plays (playsOn_nextInPlay fun _ => free)
    · exact queueStartOn_plays c cause s

theorem queueStart_plays (b : Byte) (s : State) : (queueStart b s).leads State.Plays s := by
  unfold queueStart
  split
  · trivial
  · exact queueStartOn_plays ..

theorem queueNext_plays (b : Byte) (s : State) : (queueNext b s).leads State.Plays s := by
  unfold queueNext
  split
  · trivial
  · exact queueNextOn_plays ..

/-- A queue written, with the channel's record as it was. -/
theorem playsOn_setQueue {s : State} {c : ChannelId} {q : PlayQueue} (playing : q.playing = (s.queue c).playing)
    (entries : s.speedLaw → ∀ e ∈ q.entries, ∀ v, e.speed = some v → inSpeedRange v)
    (law : s.queueLaw → q.entries.length ≤ 32 ∧
      (q.playing = true → q.entries.head? = (s.queue c).entries.head?)) : s.PlaysOn (s.setQueue c q) c :=
  ⟨_, _, _, _, _, setQueue_eq_played .., {
    fits := id
    range := fun law => law.1 c
    entries := entries
    following := fun _ => Iff.rfl
    ganged := fun _ _ => ⟨rfl, playing⟩
    leader := fun _ => Iff.rfl
    follower := fun _ => rfl
    queue := fun h => by
      obtain ⟨short, head⟩ := law h
      refine ⟨short, fun on => ?_⟩
      obtain ⟨e, rest, i, he, hs⟩ := (h c).2 (playing ▸ on)
      have first : q.entries.head? = some e := by rw [head on, he]; rfl
      exact ⟨e, q.entries.tail, i, (List.cons_head?_tail first).symm, hs⟩
    told := fun h => by simp at h }⟩

/-- Where QUEUE_ADD puts an entry (R165): at the position given, but in queue play behind the entry being played. -/
def addPlace (q : PlayQueue) : Option Byte → Nat
  | some p => if q.playing && p.toNat == 0 then 1 else p.toNat
  | none => q.entries.length

/-- A position QUEUE_ADD refuses (R165). -/
def badPlace (q : PlayQueue) : Option Byte → Bool
  | some p => decide (31 < p.toNat ∨ q.entries.length < p.toNat)
  | none => false

/-- QUEUE_ADD's checks in their order, for fields in range (R165). -/
theorem queueAdd_eq {a : QueueAddArgs} {c : ChannelId} {id : Nat} {angle : Option Nat} (s : State)
    (hc : channelOf a.channel = some c) (hid : clipIdOf a.clip = some id)
    (ha : optAngleIndexOf a.angle = some angle) : queueAdd a s =
    let q := s.queue c
    let e : QueueEntry := { clip := id, angle := angle, speed := a.speed.map speedOf }
    let es := q.entries.insertIdx (addPlace q a.position) e
    if badPlace q a.position then .refuse .badValue
    else if 32 ≤ q.entries.length then .refuse .queueFull
    else if (s.loadable e).isNone then .refuse .notFound
    else .done (s.setQueue c { q with entries := es }) (.queueAdded (addPlace q a.position) es.length) := by
  unfold queueAdd
  rw [hc, hid, ha]
  cases a.position <;> rfl

theorem addPlace_pos {q : PlayQueue} {e : QueueEntry} {rest : List QueueEntry} (on : q.playing = true)
    (he : q.entries = e :: rest) (position : Option Byte) : ∃ k, addPlace q position = k + 1 := by
  cases position with
  | none => exact ⟨rest.length, by simp [addPlace, he]⟩
  | some p =>
    by_cases hz : p.toNat = 0
    · exact ⟨0, by simp [addPlace, on, hz]⟩
    · exact ⟨p.toNat - 1, by simp [addPlace, hz]; omega⟩

theorem queueAdd_plays (a : QueueAddArgs) (s : State) : (queueAdd a s).leads State.Plays s := by
  cases hc : channelOf a.channel with
  | none => unfold queueAdd; rw [hc]; trivial
  | some c =>
    cases hid : clipIdOf a.clip with
    | none => unfold queueAdd; rw [hc, hid]; trivial
    | some id =>
      cases ha : optAngleIndexOf a.angle with
      | none => unfold queueAdd; rw [hc, hid, ha]; trivial
      | some angle =>
        rw [queueAdd_eq s hc hid ha]
        dsimp only
        split
        · trivial
        · split
          · trivial
          · next room =>
            refine leads_ite trivial
              ⟨c, playsOn_setQueue rfl (fun law e he v hv => ?_) (fun law => ⟨?_, fun on => ?_⟩)⟩
            · rcases List.eq_or_mem_of_mem_insertIdx he with rfl | he
              · obtain ⟨w, -, rfl⟩ := Option.map_eq_some_iff.mp hv
                exact clampSpeed_range _
              · exact law.2.2.1 c e he v hv
            · exact List.length_insertIdx_le_succ.trans (by omega)
            · obtain ⟨e, rest, i, he, -⟩ := (law c).2 on
              obtain ⟨k, hk⟩ := addPlace_pos (q := s.queue c) on he a.position
              dsimp only
              rw [hk, he]
              rfl

theorem queueRemove_plays (a : ChannelByteArgs) (s : State) : (queueRemove a s).leads State.Plays s := by
  unfold queueRemove
  split
  · trivial
  · next c _ =>
    dsimp only
    refine leads_ite trivial (leads_ite trivial ?_)
    split
    · next first =>
      exact ⟨c, playsOn_nextInPlay fun law hf => by simp [((law.1 c).2.1 hf).2.2] at first⟩
    · next later =>
      refine ⟨c, playsOn_setQueue rfl (fun law e he => law.2.2.1 c e (List.mem_of_mem_eraseIdx he))
        fun law => ⟨(List.length_eraseIdx_le ..).trans (law c).1, fun on => ?_⟩⟩
      obtain ⟨e, rest, i, he, -⟩ := (law c).2 on
      have pos : a.value.toNat ≠ 0 := fun hz => later ⟨hz, on⟩
      obtain ⟨k, hk⟩ := Nat.exists_eq_succ_of_ne_zero pos
      simp [he, hk]

theorem queueClear_plays (b : Byte) (s : State) : (queueClear b s).leads State.Plays s := by
  unfold queueClear
  split
  · trivial
  · next c _ =>
    refine ⟨c, playsOn_setQueue rfl (fun law e he => ?_) fun law => ⟨?_, fun on => ?_⟩⟩
    · split at he
      · exact law.2.2.1 c e (List.mem_of_mem_take he)
      · cases he
    · have := (law c).1
      dsimp only
      split
      · rw [List.length_take]; omega
      · simp
    · obtain ⟨e, rest, i, he, -⟩ := (law c).2 on
      have on' : (s.queue c).playing = true := on
      simp [on', he]

theorem queryQueue_plays (a : ChannelByteArgs) (s : State) : (queryQueue a s).leads State.Plays s := by
  unfold queryQueue
  split
  · trivial
  · exact leads_ite trivial (plays_refl s)

/-! ## Editing a queue -/

theorem badPlace_iff {q : PlayQueue} {position : Option Byte} : badPlace q position = true ↔
    ∃ p, position = some p ∧ (32 ≤ p.toNat ∨ q.entries.length < p.toNat) := by
  cases position with
  | none => simp [badPlace]
  | some p => simp only [badPlace, decide_eq_true_eq, Option.some.injEq, exists_eq_left']; omega

theorem addPlace_none {q : PlayQueue} {position : Option Byte} (h : position = none) :
    addPlace q position = q.entries.length := by
  rw [h]; rfl

theorem addPlace_some {q : PlayQueue} {position : Option Byte} {p : Byte} (h : position = some p) :
    addPlace q position = if q.playing = true ∧ p.toNat = 0 then 1 else p.toNat := by
  simp [h, addPlace]

/-- An entry loads when its clip's angle can be shown. -/
theorem loads_entry_iff {s : State} {id : Nat} {angle : Option Nat} {speed : Option Int} :
    (∃ n g, s.loads ⟨id, angle, speed⟩ n g) ↔ ∃ k g, s.clipOf id = some k ∧ k.state ≠ .lost ∧
      k.angles[angle.getD k.primary]? = some g ∧ g.present = true := by
  constructor
  · rintro ⟨n, g, k, hk, hl, rfl, hg, hp⟩
    exact ⟨k, g, hk, hl, hg, hp⟩
  · rintro ⟨k, g, hk, hl, hg, hp⟩
    exact ⟨_, g, k, hk, hl, rfl, hg, hp⟩

theorem queueAdd_badFields {a : QueueAddArgs} {s : State}
    (h : 1024 ≤ a.clip.toNat ∨ ∃ i, a.angle = some i ∧ 8 ≤ i.toNat) : queueAdd a s = .refuse .badValue := by
  unfold queueAdd
  rcases h with h | ⟨i, hi, h⟩
  · rw [clipIdOf_eq_none h]
    cases channelOf a.channel <;> rfl
  · have none : optAngleIndexOf a.angle = none := by
      rw [hi]
      exact congrArg (Option.map some) (angleIndexOf_eq_none h)
    rw [none]
    cases channelOf a.channel <;> cases clipIdOf a.clip <;> rfl

section queueAdd

variable {a : QueueAddArgs} {c : ChannelId} {s : State}

/-- The fields or the position QUEUE_ADD refuses (R165). -/
abbrev QueueAddBad (a : QueueAddArgs) (q : PlayQueue) : Prop :=
  1024 ≤ a.clip.toNat ∨ (∃ i, a.angle = some i ∧ 8 ≤ i.toNat) ∨
    ∃ p, a.position = some p ∧ (32 ≤ p.toNat ∨ q.entries.length < p.toNat)

/-- The entry a QUEUE_ADD asks for. -/
def addedEntry (a : QueueAddArgs) : QueueEntry := ⟨a.clip.toNat, a.angle.map (·.toNat), a.speed.map speedOf⟩

theorem unloadable_addedEntry : (s.loadable (addedEntry a)).isNone = true ↔
    ¬∃ k g, s.clipOf a.clip.toNat = some k ∧ k.state ≠ .lost ∧
      k.angles[(a.angle.map (·.toNat)).getD k.primary]? = some g ∧ g.present = true := by
  rw [loadable_isNone, ← loads_entry_iff (speed := a.speed.map speedOf)]
  push Not
  rfl

/-- QUEUE_ADD's checks in their order (R165). -/
theorem queueAdd_checks (hc : a.channel.toNat = c.val) : queueAdd a s =
    if QueueAddBad a (s.queue c) then .refuse .badValue
    else if 32 ≤ (s.queue c).entries.length then .refuse .queueFull
    else if (s.loadable (addedEntry a)).isNone then .refuse .notFound
    else
      let es := (s.queue c).entries.insertIdx (addPlace (s.queue c) a.position) (addedEntry a)
      .done (s.setQueue c { s.queue c with entries := es })
        (.queueAdded (addPlace (s.queue c) a.position) es.length) := by
  by_cases fields : 1024 ≤ a.clip.toNat ∨ ∃ i, a.angle = some i ∧ 8 ≤ i.toNat
  · have bad : QueueAddBad a (s.queue c) := fields.imp_right .inl
    rw [queueAdd_badFields fields, if_pos bad]
  · have hid : a.clip.toNat < 1024 := by by_contra h; exact fields (.inl (by omega))
    have hi : ∀ i, a.angle = some i → i.toNat < 8 := fun i hi => by
      by_contra h; exact fields (.inr ⟨i, hi, by omega⟩)
    have bad : QueueAddBad a (s.queue c) ↔ badPlace (s.queue c) a.position = true := by
      rw [badPlace_iff]
      exact ⟨fun h => (h.elim (fun h => absurd (.inl h) fields)
        fun h => h.elim (fun h => absurd (.inr h) fields) fun h => h), fun h => .inr (.inr h)⟩
    rw [queueAdd_eq s (channelOf_eq_some hc) (clipIdOf_eq_some hid) (optAngleIndexOf_eq_some hi)]
    exact if_congr bad.symm rfl rfl

end queueAdd

section queueRemove

variable {a : ChannelByteArgs} {c : ChannelId} {s : State}

/-- QUEUE_REMOVE's checks in their order (R166). -/
theorem queueRemove_checks (hc : a.channel.toNat = c.val) : queueRemove a s =
    if 31 < a.value.toNat then .refuse .badValue
    else if (s.queue c).entries.length ≤ a.value.toNat then .refuse .notFound
    else if a.value.toNat = 0 ∧ (s.queue c).playing then
      let t := (s.nextInPlay c .queue).state
      .done t (.queueRemoved (t.queue c).entries.length (some (t.transport c)))
    else
      let es := (s.queue c).entries.eraseIdx a.value.toNat
      .done (s.setQueue c { s.queue c with entries := es }) (.queueRemoved es.length none) := by
  unfold queueRemove
  rw [channelOf_eq_some hc]

theorem queryQueue_checks (hc : a.channel.toNat = c.val) : queryQueue a s =
    if 31 < a.value.toNat then .refuse .badValue
    else .done s (.queue (s.queue c).playing (s.queue c).entries.length
      (((s.queue c).entries.drop a.value.toNat).take 16) (s.queue c).session) := by
  unfold queryQueue
  rw [channelOf_eq_some hc]

theorem queueClear_eq {b : Byte} (hc : b.toNat = c.val) : queueClear b s =
    let kept := if (s.queue c).playing then (s.queue c).entries.take 1 else []
    .done (s.setQueue c { s.queue c with entries := kept })
      (.queueCleared ((s.queue c).entries.length - kept.length)) := by
  unfold queueClear
  rw [channelOf_eq_some hc]

end queueRemove

/-- Settles O41: the checks of each edit in their order, and the one queue it writes. -/
theorem queueEditing : Obligations.QueueEditing := by
  intro tag b c u s hc
  refine ⟨fun w angle position speed ht => ?_, fun i ht => ⟨fun high => ?_, fun low beyond => ?_, fun low held later => ?_⟩,
    fun ht => ⟨fun off => ?_, fun e rest on he => ?_⟩, fun i ht => ⟨fun high => ?_, fun low => ?_⟩⟩
  · have checks := queueAdd_checks (a := ⟨b, w, angle, speed, position⟩) (s := s) hc
    refine ⟨fun bad => ?_, fun ok full => ?_, fun ok room lost => ?_, fun ok room can =>
      ⟨addPlace (s.queue c) position, addPlace_none, fun p => addPlace_some, ?_⟩⟩
    · exact turnedAway_of_refuse (f := queueAdd) rfl ht (checks.trans (if_pos bad))
    · refine turnedAway_of_refuse (f := queueAdd) rfl ht (checks.trans ?_)
      rw [if_neg ok, if_pos full]
    · refine turnedAway_of_refuse (f := queueAdd) rfl ht (checks.trans ?_)
      rw [if_neg ok, if_neg (Nat.not_le.mpr room), if_pos (unloadable_addedEntry.mpr lost)]
    · refine accepted_of_done (f := queueAdd) rfl ht (checks.trans ?_)
      rw [if_neg ok, if_neg (Nat.not_le.mpr room), if_neg fun h => unloadable_addedEntry.mp h can]
      rfl
  · exact turnedAway_of_refuse (f := queueRemove) rfl ht ((queueRemove_checks hc).trans (if_pos high))
  · refine turnedAway_of_refuse (f := queueRemove) rfl ht ((queueRemove_checks hc).trans ?_)
    rw [if_neg (Nat.not_lt.mpr low), if_pos beyond]
  · refine accepted_of_done (f := queueRemove) rfl ht ((queueRemove_checks hc).trans ?_)
    rw [if_neg (Nat.not_lt.mpr low), if_neg (Nat.not_le.mpr held), if_neg later]
    dsimp only
    rw [List.length_eraseIdx_of_lt held, List.eraseIdx_eq_take_drop_succ]
  · refine accepted_of_done (f := queueClear) rfl ht ((queueClear_eq hc).trans ?_)
    simp [off]
  · refine accepted_of_done (f := queueClear) rfl ht ((queueClear_eq hc).trans ?_)
    simp [on, he]
  · exact turnedAway_of_refuse (f := queryQueue) rfl ht ((queryQueue_checks hc).trans (if_pos high))
  · exact accepted_of_done (f := queryQueue) rfl ht ((queryQueue_checks hc).trans (if_neg (Nat.not_lt.mpr low)))

/-! ## Queue loads answered -/

theorem endSession_played_ended {s : State} {c : ChannelId} {q : PlayQueue} {notes : List Note} {free : Nat}
    (o : RunOutcome) (h : q.session = (s.queue c).session) :
    (s.played c (s.channel c) q id notes free).endSession c o none =
      s.played c (s.channel c) { q with session := none } id (notes ++ (s.endedOn o [c]).map .entry) free := by
  rw [endSession_played, h]
  simp [State.endedOn, Function.comp_def]

section answered

variable {s : State} {c : ChannelId} {lost rest : List QueueEntry} {e : QueueEntry} {more : List QueueEntry}
  {n : Nat} {g : Angle} {cause : Cause}

theorem loads_angleOf (h : s.loads e n g) : s.angleOf e.clip n = some g := by
  obtain ⟨k, hk, -, -, hg, -⟩ := h
  exact (angleOf_of_clipOf hk n).trans hg

theorem headEntry_loads {q : PlayQueue} {notes : List Note} {free : Nat} (he : q.entries = e :: more)
    (h : s.loads e n g) : (s.played c (s.channel c) q id notes free).headEntry c = some (e, n, g) := by
  rw [headEntry_played]
  simp [he, loadable_eq_some.mpr h]

theorem headEntry_empty {q : PlayQueue} {notes : List Note} {free : Nat} (he : q.entries = []) :
    (s.played c (s.channel c) q id notes free).headEntry c = none := by
  rw [headEntry_played]
  simp [he]

/-- A load made after the notes of skips and of a session ended. -/
theorem loadEntry_played {q : PlayQueue} {log : List RunEntry} {free : Nat} {cut : Bool} (h : s.loads e n g) :
    (s.played c (s.channel c) q id (log.map .entry) free).loadEntry c e n g cut cause =
      s.played c (s.loadedChannel c e n g cut) ⟨q.entries, true, some (freshSession e.clip g.train)⟩
        (leaveArm (s.channel c).state .playing)
        (log.map .entry ++ (s.changeReport c (s.loadedChannel c e n g cut) cause).map .report) free := by
  have same : (s.played c (s.channel c) q id (log.map .entry) free).loadedChannel c e n g cut =
      s.loadedChannel c e n g cut := by simp [State.loadedChannel]
  rw [loadEntry_eq_played, same, played_played, played_opened, opened_clip _ (loads_angleOf h)]
  simp [State.changeReport]

/-- A stop made after the notes of skips and of a session ended. -/
theorem queueStop_played {q : PlayQueue} {log : List RunEntry} {free : Nat} :
    (s.played c (s.channel c) q id (log.map .entry) free).queueStop c cause =
      s.played c (s.stoppedChannel c) { q with playing := false } (leaveArm (s.channel c).state .cued)
        (log.map .entry ++ (s.changeReport c (s.stoppedChannel c) cause).map .report) free := by
  have same : (s.played c (s.channel c) q id (log.map .entry) free).stoppedChannel c = s.stoppedChannel c := by
    simp [State.stoppedChannel]
  rw [queueStop_eq_played, same, played_played]
  simp [State.changeReport]

/-- Skipping a queue whose leading entries cannot be loaded, and whose next one, if there is one, can. -/
theorem skip_split {q : PlayQueue} {log : List RunEntry} {free : Nat} (hq : q.entries = lost ++ rest)
    (hl : ∀ e ∈ lost, ∀ n g, ¬s.loads e n g) (hr : ∀ e more, rest = e :: more → ∃ n g, s.loads e n g) :
    (s.played c (s.channel c) q id (log.map .entry) free).unloadable c = lost ∧
      (s.played c (s.channel c) q id (log.map .entry) free).skip c = s.played c (s.channel c)
        { q with entries := rest } id ((log ++ s.skippedOn c lost).map .entry) free := by
  have found : q.entries.takeWhile (fun e => (s.loadable e).isNone) = lost := by rw [hq, takeWhile_unloadable hl hr]
  refine ⟨by simpa [State.unloadable] using found, ?_⟩
  rw [skip_played]
  dsimp only
  rw [found, hq]
  simp

/-- A cut to an entry that can be loaded (R170, R171). -/
theorem cutToNext_loads {q : PlayQueue} {log : List RunEntry} {free : Nat} {stop : Cause}
    (hq : q.entries = lost ++ e :: more) (hl : ∀ e ∈ lost, ∀ n g, ¬s.loads e n g) (h : s.loads e n g) :
    (s.played c (s.channel c) q id (log.map .entry) free).cutToNext c cause stop =
      { state := s.played c (s.loadedChannel c e n g true) ⟨e :: more, true, some (freshSession e.clip g.train)⟩
          (leaveArm (s.channel c).state .playing) ((log ++ s.skippedOn c lost).map .entry ++
            (s.changeReport c (s.loadedChannel c e n g true) cause).map .report) free
        skipped := lost.length, loaded := some (e.clip, n) } := by
  obtain ⟨unloadable, skip⟩ := skip_split (c := c) (log := log) (free := free) hq hl
    (fun d m hd => by obtain ⟨rfl, rfl⟩ := List.cons.inj hd; exact ⟨n, g, h⟩)
  unfold State.cutToNext
  simp only [unloadable, skip, headEntry_loads (s := s) (c := c) (q := { q with entries := e :: more }) rfl h,
    loadEntry_played h]

/-- A cut with nothing left to load (R170, R90). -/
theorem cutToNext_empty {q : PlayQueue} {log : List RunEntry} {free : Nat} {stop : Cause}
    (hq : q.entries = lost) (hl : ∀ e ∈ lost, ∀ n g, ¬s.loads e n g) :
    (s.played c (s.channel c) q id (log.map .entry) free).cutToNext c cause stop =
      { state := s.played c (s.stoppedChannel c) { q with entries := [], playing := false }
          (leaveArm (s.channel c).state .cued) ((log ++ s.skippedOn c lost).map .entry ++
            (s.changeReport c (s.stoppedChannel c) stop).map .report) free
        skipped := lost.length, loaded := none } := by
  obtain ⟨unloadable, skip⟩ := skip_split (c := c) (q := q) (rest := []) (log := log) (free := free) (by simpa using hq) hl
    (fun d m hd => by cases hd)
  unfold State.cutToNext
  simp only [unloadable, skip, headEntry_empty (s := s) (c := c) (q := { q with entries := [] }) rfl, queueStop_played]

/-- QUEUE_START, and QUEUE_NEXT outside queue play, with an entry that can be loaded (R169). -/
theorem startQueue_loads (hq : (s.queue c).entries = lost ++ e :: more) (hl : ∀ e ∈ lost, ∀ n g, ¬s.loads e n g)
    (h : s.loads e n g) : s.startQueue c cause =
      { state := s.played c (s.loadedChannel c e n g false) ⟨e :: more, true, some (freshSession e.clip g.train)⟩
          (leaveArm (s.channel c).state .playing) ((s.skippedOn c lost ++ s.endedOn .cutShort [c]).map .entry ++
            (s.changeReport c (s.loadedChannel c e n g false) cause).map .report) s.freeReads
        skipped := lost.length, loaded := some (e.clip, n) } := by
  obtain ⟨unloadable, skip⟩ := skip_split (c := c) (log := []) (free := s.freeReads) hq hl
    (fun d m hd => by obtain ⟨rfl, rfl⟩ := List.cons.inj hd; exact ⟨n, g, h⟩)
  simp only [List.map_nil, played_self, List.nil_append] at unloadable skip
  unfold State.startQueue
  simp only [unloadable, skip, headEntry_loads (s := s) (c := c) (q := { s.queue c with entries := e :: more }) rfl h]
  rw [endSession_played_ended (q := { s.queue c with entries := e :: more }) _ rfl, ← List.map_append,
    loadEntry_played h]

/-- QUEUE_START with nothing to load: in queue play the channel stops, and otherwise the queue is emptied (R169). -/
theorem startQueue_empty (hl : ∀ e ∈ (s.queue c).entries, ∀ n g, ¬s.loads e n g) : s.startQueue c cause =
      { state := if (s.queue c).playing then
            s.played c (s.stoppedChannel c) ⟨[], false, none⟩ (leaveArm (s.channel c).state .cued)
              ((s.skippedOn c (s.queue c).entries ++ s.endedOn .cutShort [c]).map .entry ++
                (s.changeReport c (s.stoppedChannel c) cause).map .report) s.freeReads
          else s.played c (s.channel c) { s.queue c with entries := [] } id
            ((s.skippedOn c (s.queue c).entries).map .entry) s.freeReads
        skipped := (s.queue c).entries.length, loaded := none } := by
  obtain ⟨unloadable, skip⟩ := skip_split (c := c) (q := s.queue c) (lost := (s.queue c).entries) (rest := [])
    (log := []) (free := s.freeReads) (by simp) hl (fun d m hd => by cases hd)
  simp only [List.map_nil, played_self, List.nil_append] at unloadable skip
  unfold State.startQueue
  simp only [unloadable, skip, headEntry_empty (s := s) (c := c) (q := { s.queue c with entries := [] }) rfl,
    played_queue_self]
  split
  · rw [endSession_played_ended (q := { s.queue c with entries := [] }) _ rfl, ← List.map_append, queueStop_played]
  · rfl

/-- The log and the reports of a queue load, as its statement has them. -/
theorem played_told {log : List RunEntry} {new : Channel} {q : PlayQueue} {f : ArmState → ArmState} {free : Nat}
    (h : s.runLog.entries.length ≤ 256) :
    let t := s.played c new q f (log.map .entry ++ (s.changeReport c new cause).map .report) free
    s.logged t log ∧
      s.raised t (appendReports s.runLog.entries.length log ++ s.changeReport c (t.channel c) cause) := by
  dsimp only
  rw [played_channel_self]
  constructor
  · have := played_logged (c := c) (new := new) (q := q) (f := f) (free := free)
      (notes := log.map .entry ++ (s.changeReport c new cause).map .report) h
    simpa only [entriesOf_append, entriesOf_entries, entriesOf_reports, List.append_nil] using this
  · have := played_raised (c := c) (new := new) (q := q) (f := f) (free := free)
      (notes := log.map .entry ++ (s.changeReport c new cause).map .report) h
    rwa [bodiesOf_entries_reports] at this

theorem speedOf_entry (s : State) (e : QueueEntry) : s.speedOf e = s.entrySpeed e := by
  unfold State.speedOf State.entrySpeed
  cases e.speed <;> rfl

theorem loadedChannel_eq (s : State) (c : ChannelId) (e : QueueEntry) (i : Nat) (g : Angle) (cut : Bool) :
    s.loadedChannel c e i g cut = { s.channel c with
      state := .playing, source := .clip e.clip i, head := g.inSerial * 1200
      speed := if cut then s.speedOf e else 0, target := s.speedOf e, edgeHold := false
      jogAcc := (s.channel c).jogLeft, bounce := some (s.contextOf e.clip (s.speedOf e)) } := by
  rw [speedOf_entry]
  unfold State.loadedChannel
  rw [freshBounce_clip]
  rfl

end answered

/-- The rows of QUEUE_START, and of QUEUE_NEXT outside queue play. -/
theorem queueStart_rows {tag b kind : Byte} {c : ChannelId} {i : Instr} {s u : State} (hc : b.toNat = c.val)
    (free : (s.channel c).state ≠ .following) (ht : u.takes i s)
    (row : i = .queueStart tag (.fields b) ∧ kind = 0x5C ∨
      i = .queueNext tag (.fields b) ∧ kind = 0x5D ∧ (s.queue c).playing = false) :
    ((s.queue c).entries = [] → TurnedAway i kind tag u s .notFound) ∧
      ((s.queue c).entries ≠ [] → ∀ o, s.startQueue c .queue = o →
        Accepted i kind tag u o.state (.queueLoaded o.skipped o.loaded (o.state.transport c))) := by
  have start : queueStartOn c .queue s =
      if (s.queue c).entries = [] then .refuse .notFound else (s.startQueue c .queue).verdict c := if_neg free
  have onStart : queueStart b s = queueStartOn c .queue s := by unfold queueStart; rw [channelOf_eq_some hc]
  rcases row with ⟨rfl, rfl⟩ | ⟨rfl, rfl, off⟩
  · refine ⟨fun h => turnedAway_of_refuse (f := queueStart) rfl ht ?_, fun h o ho =>
      accepted_of_done (f := queueStart) rfl ht ?_⟩
    · rw [onStart, start, if_pos h]
    · rw [onStart, start, if_neg h, ho]; rfl
  · have onNext : queueNext b s = queueStartOn c .queue s := by
      unfold queueNext queueNextOn
      rw [channelOf_eq_some hc]
      simp [free, off]
    refine ⟨fun h => turnedAway_of_refuse (f := queueNext) rfl ht ?_, fun h o ho =>
      accepted_of_done (f := queueNext) rfl ht ?_⟩
    · rw [onNext, start, if_pos h]
    · rw [onNext, start, if_neg h, ho]; rfl

/-- The rows that go on to the next entry: QUEUE_NEXT in queue play, and QUEUE_REMOVE of the entry being played. -/
theorem queueNext_rows {tag b kind : Byte} {c : ChannelId} {i : Instr} {s u : State} {lost : List QueueEntry}
    {answer : Option (Nat × Nat) → State → ReplyBody} (hc : b.toNat = c.val)
    (free : (s.channel c).state ≠ .following) (ht : u.takes i s) (on : (s.queue c).playing = true)
    (row : i = .queueNext tag (.fields b) ∧ kind = 0x5D ∧
        (answer = fun l t => .queueLoaded lost.length l (t.transport c)) ∨
      i = .queueRemove tag (.fields ⟨b, 0⟩) ∧ kind = 0x59 ∧ (s.queue c).entries ≠ [] ∧
        (answer = fun _ t => .queueRemoved (t.queue c).entries.length (some (t.transport c))))
    {o : LoadOutcome} (ho : s.nextInPlay c .queue = o) (hs : o.skipped = lost.length) :
    Accepted i kind tag u o.state (answer o.loaded o.state) := by
  rcases row with ⟨rfl, rfl, rfl⟩ | ⟨rfl, rfl, held, rfl⟩
  · refine accepted_of_done (f := queueNext) rfl ht ?_
    unfold queueNext queueNextOn
    rw [channelOf_eq_some hc]
    dsimp only
    rw [if_neg free, if_pos on, ho, LoadOutcome.verdict, hs]
  · refine accepted_of_done (f := queueRemove) rfl ht ((queueRemove_checks hc).trans ?_)
    have some : ¬(s.queue c).entries.length ≤ (0 : Byte).toNat :=
      Nat.not_le.mpr (List.length_pos_iff.mpr held)
    rw [if_neg (by simp), if_neg some, if_pos ⟨rfl, on⟩, ho]

/-- Settles O42: each row's queue load, by whether an entry can be loaded. -/
theorem queueLoads : Obligations.QueueLoads := by
  intro tag b c u s hc free hlog
  refine ⟨fun i kind ht row => ?_, fun i kind lost rest answer ht on hq hl row => ?_⟩
  · obtain ⟨refused, accepted⟩ := queueStart_rows hc free ht row
    refine ⟨refused, fun lost rest hn hq hl => ⟨fun e more n g hr hload => ?_, fun hr off => ?_, fun hr on => ?_⟩⟩
    · have done := accepted hn _ (startQueue_loads (hr ▸ hq) hl hload)
      refine ⟨_, done, ⟨?_, played_queue_self .., played_channelFrame⟩, played_told hlog⟩
      rw [played_channel_self, loadedChannel_eq]
    · rw [hr, List.append_nil] at hq
      have done := accepted hn _ (startQueue_empty (hq ▸ hl))
      simp only [off, Bool.false_eq_true, if_false] at done
      rw [hq] at done
      refine ⟨_, done, played_channel_self .., ?_, ?_, ?_⟩
      · rw [played_queue_self, off]
      · have frame := played_channelFrame (s := s) (c := c) (new := s.channel c)
          (q := ⟨[], false, (s.queue c).session⟩) (notes := (s.skippedOn c lost).map .entry)
        rwa [leaveArm_self] at frame
      · have told := played_told (c := c) (cause := .queue) (log := s.skippedOn c lost) (new := s.channel c)
          (q := { s.queue c with entries := [] }) (f := id) (free := s.freeReads) hlog
        simpa only [changeReport_kept (c := c) (new := s.channel c) _ rfl rfl, List.map_nil, List.append_nil, off,
          played_channel_self] using told
    · rw [hr, List.append_nil] at hq
      have done := accepted hn _ (startQueue_empty (hq ▸ hl))
      rw [on, hq] at done
      exact ⟨_, done, ⟨played_channel_self .., played_queue_self .., played_channelFrame⟩, played_told hlog⟩
  · have next : s.nextInPlay c .queue = (s.played c (s.channel c)
        { s.queue c with entries := (s.queue c).entries.drop 1, session := none } id
        ((s.endedOn .cutShort [c]).map .entry) s.freeReads).cutToNext c .queue .queue := by
      unfold State.nextInPlay
      rw [endSession_dropHead_eq_played]
    refine ⟨fun e more n g hr hload => ?_, fun hr => ?_⟩
    · have done := queueNext_rows hc free ht on row (next.trans (cutToNext_loads (hr ▸ hq) hl hload)) rfl
      refine ⟨_, done, ⟨?_, played_queue_self .., played_channelFrame⟩, played_told hlog⟩
      rw [played_channel_self, loadedChannel_eq]
    · rw [hr, List.append_nil] at hq
      have done := queueNext_rows hc free ht on row (next.trans (cutToNext_empty hq hl)) rfl
      exact ⟨_, done, ⟨played_channel_self .., played_queue_self .., played_channelFrame⟩, played_told hlog⟩

end Sys2Proof.Machine
end

section
/-! The geometry of the playback head (R47, R48, R55 to R57, R60 to R63): clamps, snaps, settling and the frames shown,
as the statements have them. -/

namespace Sys2Proof.Machine

/-! ## Clamps and holes -/

theorem clampHead_eq (lo hi : Nat) (m : Int) : clampHead lo hi m = clampedHead lo hi m := by
  simp [clampHead, clampedHead, Config.sfu]

theorem clampedHead_bounds {lo hi : Nat} (h : lo ≤ hi) (m : Int) :
    lo * 1200 ≤ clampedHead lo hi m ∧ clampedHead lo hi m ≤ hi * 1200 := by
  unfold clampedHead
  split
  · omega
  · split <;> omega

theorem clampedHead_within {lo hi h : Nat} (low : lo * 1200 ≤ h) (high : h ≤ hi * 1200) :
    clampedHead lo hi h = h := by
  unfold clampedHead
  rw [if_neg (by omega), if_neg (by omega)]
  rfl

theorem inHole_iff {t : Train} {lo hi head : Nat} : inHole t lo hi head = true ↔
    lo ≤ head / 1200 ∧ head / 1200 ≤ hi ∧ t.retained (head / 1200) = false := by
  unfold inHole
  rw [Bool.and_eq_true, decide_eq_true_eq, Bool.not_eq_true', and_assoc]
  rfl

/-- A clamped head is in a hole exactly when its frame is not retained. -/
theorem inHole_clamped {lo hi : Nat} (h : lo ≤ hi) (t : Train) (m : Int) :
    inHole t lo hi (clampedHead lo hi m) = !t.retained (clampedHead lo hi m / 1200) := by
  obtain ⟨low, high⟩ := clampedHead_bounds h m
  unfold inHole
  rw [decide_eq_true (by simp only [Config.sfu]; omega)]
  rfl

/-! ## Snaps (R48) -/

theorem find?_of_append {α : Type} {p : α → Bool} {pre post : List α} {a : α} (hpre : ∀ b ∈ pre, p b = false)
    (ha : p a = true) : (pre ++ a :: post).find? p = some a := by
  rw [List.find?_append, List.find?_eq_none.mpr fun b hb => by simp [hpre b hb]]
  simp [ha]

theorem find?_reverse_of_append {α : Type} {p : α → Bool} {pre post : List α} {a : α}
    (hpost : ∀ b ∈ post, p b = false) (ha : p a = true) : (pre ++ a :: post).reverse.find? p = some a := by
  rw [List.reverse_append, List.reverse_cons, List.append_assoc]
  exact find?_of_append (fun b hb => hpost b (List.mem_reverse.mp hb)) ha

/-- The forward snap goes to the serial R48 names, and tells whether it lies before hi (log 19). -/
theorem snapForward_eq {t : Train} {hi head dest : Nat} (h : t.snapsForward hi (head / 1200) dest) :
    snapForward t hi head = (dest * 1200, decide (dest < hi)) := by
  change t.snapsForward hi (head / Config.sfu) dest at h
  unfold snapForward
  rcases h with ⟨none, rfl⟩ | ⟨pre, e, post, hc, before, after, rfl⟩
  · rw [List.find?_eq_none.mpr fun e he => by simpa only [decide_eq_true_eq, Nat.not_lt] using none e he]
    simp [Config.sfu]
  · rw [hc, find?_of_append (fun d hd => decide_eq_false (Nat.not_lt.mpr (before d hd))) (decide_eq_true after)]
    dsimp only
    split
    · next le => rw [Nat.min_eq_left le]; rfl
    · next gt => simp [Nat.min_eq_right (by omega : hi ≤ e.first), Config.sfu]

/-- The backward snap goes to the serial R48 names. -/
theorem snapBackward_eq {t : Train} {lo head dest : Nat} (h : t.snapsBackward lo (head / 1200) dest) :
    snapBackward t lo head = dest * 1200 := by
  have above : ∀ e : ChainEntry, (0 < e.fill → head / 1200 ≤ e.first + e.fill - 1) →
      (e.nonEmpty && decide (e.last < head / Config.sfu)) = false := by
    intro e he
    rw [Bool.and_eq_false_iff]
    by_cases hf : 0 < e.fill
    · exact .inr (decide_eq_false (Nat.not_lt.mpr (he hf)))
    · exact .inl (decide_eq_false hf)
  unfold snapBackward
  rcases h with ⟨none, rfl⟩ | ⟨pre, e, post, hc, after, held, before, rfl⟩
  · rw [List.find?_eq_none.mpr fun e he => by simp [above e (none e (List.mem_reverse.mp he))]]
    rfl
  · have below : (e.nonEmpty && decide (e.last < head / Config.sfu)) = true :=
      Bool.and_eq_true_iff.mpr ⟨decide_eq_true held, decide_eq_true before⟩
    rw [hc, find?_reverse_of_append (fun d hd => above d (after d hd)) below]
    change (if lo ≤ e.last then e.last * 1200 else lo * 1200) = max e.last lo * 1200
    split
    · next le => rw [Nat.max_eq_left le]
    · next gt => rw [Nat.max_eq_right (by omega)]

theorem snapped_eq (b dest : Nat) :
    snapped b (dest * 1200) = if dest * 1200 = b then none else some (b / 1200, dest) := by
  simp [snapped, Config.sfu]

/-! ## Settling (R60) -/

/-- A settled head is the one R60 names, with the serials of its snap. -/
theorem settledHead_eq {t : Train} {lo hi head h : Nat} {speed : Int} {hop : Option (Nat × Nat)} (hle : lo ≤ hi)
    (settles : t.settles lo hi head speed h hop) : settledHead t lo hi head speed = (h, hop) := by
  obtain ⟨dest, ⟨kept, moved⟩, fore, back, rest⟩ := settles
  unfold settledHead
  simp only [clampHead_eq, inHole_clamped hle]
  cases hr : t.retained (clampedHead lo hi head / 1200) with
  | true =>
    obtain ⟨rfl, rfl⟩ := kept hr
    rfl
  | false =>
    obtain ⟨rfl, rfl⟩ := moved hr
    have goes : (if speed < 0 then snapBackward t lo (clampedHead lo hi head)
        else if 0 < speed then (snapForward t hi (clampedHead lo hi head)).1
        else if (snapForward t hi (clampedHead lo hi head)).2 then (snapForward t hi (clampedHead lo hi head)).1
        else snapBackward t lo (clampedHead lo hi head)) = dest * 1200 := by
      rcases lt_trichotomy speed 0 with neg | zero | pos
      · rw [if_pos neg, snapBackward_eq (back neg)]
      · obtain ⟨f, hf, near, far⟩ := rest zero
        rw [if_neg (by omega), if_neg (by omega), snapForward_eq hf]
        by_cases hlt : f < hi
        · simp [hlt, near hlt]
        · simp [hlt, snapBackward_eq (far (by omega))]
      · rw [if_neg (by omega), if_pos pos, snapForward_eq (fore pos)]
    simp only [goes, snapped_eq, Bool.not_false, if_true]

/-- A head inside its bounds on a retained frame settles where it is. -/
theorem settledHead_within {t : Train} {lo hi h : Nat} {speed : Int} (low : lo * 1200 ≤ h) (high : h ≤ hi * 1200)
    (kept : t.retained (h / 1200) = true) : settledHead t lo hi h speed = (h, none) := by
  have hole : inHole t lo hi h = false := by simp [inHole, Config.sfu, kept]
  unfold settledHead
  simp only [clampHead_eq, clampedHead_within low high, hole]
  rfl

/-! ## Resolution against bounds and holes (R55, R56) -/

/-- The bound a step reaches, itself or by its snap to a serial (R55, log 20). -/
def boundReached (t : Train) (lo hi : Nat) (m v : Int) (travel : Direction) (dest : Nat) : Option Direction :=
  if t.retained (clampedHead lo hi m / 1200) = true then stepReaches lo hi m v
  else match travel with
    | .forward => if 0 < v ∧ dest = hi then some .forward else stepReaches lo hi m v
    | .reverse => if v < 0 ∧ dest = lo then some .reverse else stepReaches lo hi m v

theorem resolve_eq {t : Train} {lo hi h dest : Nat} {m v : Int} {travel : Direction} {hop : Option (Nat × Nat)}
    (hle : lo ≤ hi) (lands : t.lands (clampedHead lo hi m) h dest hop)
    (fore : travel = .forward → t.snapsForward hi (clampedHead lo hi m / 1200) dest)
    (back : travel = .reverse → t.snapsBackward lo (clampedHead lo hi m / 1200) dest) :
    resolve t lo hi m v travel = { head := h, reached := boundReached t lo hi m v travel dest, snap := hop } := by
  obtain ⟨kept, moved⟩ := lands
  unfold resolve boundReached
  simp only [clampHead_eq, inHole_clamped hle]
  cases hr : t.retained (clampedHead lo hi m / 1200) with
  | true =>
    obtain ⟨rfl, rfl⟩ := kept hr
    rfl
  | false =>
    obtain ⟨rfl, rfl⟩ := moved hr
    cases travel with
    | forward => simp [snapForward_eq (fore rfl), snapped_eq, Config.sfu]
    | reverse => simp [snapBackward_eq (back rfl), snapped_eq, Config.sfu]

/-- The direction a sub-step travels in outside a jog (R54). -/
def travelOf (v : Int) : Direction := if 0 < v then .forward else if v < 0 then .reverse else .forward

theorem travelOf_forward {v : Int} (h : travelOf v = .forward) : 0 ≤ v := by
  unfold travelOf at h
  split at h
  · omega
  · split at h
    · cases h
    · omega

theorem travelOf_reverse {v : Int} (h : travelOf v = .reverse) : v < 0 := by
  unfold travelOf at h
  split at h
  · cases h
  · split at h
    · assumption
    · cases h

theorem stepReaches_eq (lo hi : Nat) (m v : Int) : stepReaches lo hi m v =
    if 0 < v ∧ (hi : Int) * 1200 ≤ m then some .forward
    else if v < 0 ∧ m ≤ (lo : Int) * 1200 then some .reverse else none := by
  simp [stepReaches, Config.sfu]

/-- The bound a move reaches is the one the step or the snap comes to. -/
theorem boundReached_eq {t : Train} {lo hi dest : Nat} {m v : Int} {reached : Option Direction}
    (up : reached = some .forward ↔ 0 < v ∧ ((hi : Int) * 1200 ≤ m ∨
      (t.retained (clampedHead lo hi m / 1200) = false ∧ dest = hi)))
    (down : reached = some .reverse ↔ v < 0 ∧ (m ≤ (lo : Int) * 1200 ∨
      (t.retained (clampedHead lo hi m / 1200) = false ∧ dest = lo))) :
    boundReached t lo hi m v (travelOf v) dest = reached := by
  have reach : boundReached t lo hi m v (travelOf v) dest =
      if 0 < v ∧ ((hi : Int) * 1200 ≤ m ∨ (t.retained (clampedHead lo hi m / 1200) = false ∧ dest = hi))
      then some .forward
      else if v < 0 ∧ (m ≤ (lo : Int) * 1200 ∨ (t.retained (clampedHead lo hi m / 1200) = false ∧ dest = lo))
      then some .reverse else none := by
    unfold boundReached
    rw [stepReaches_eq]
    cases hr : t.retained (clampedHead lo hi m / 1200) with
    | true => simp
    | false =>
      rcases lt_trichotomy v 0 with neg | rfl | pos
      · have back : travelOf v = .reverse := by simp [travelOf, neg, Int.not_lt.mpr (le_of_lt neg)]
        have up : ¬0 < v := by omega
        by_cases hd : dest = lo <;> simp [back, neg, up, hd]
      · simp [travelOf]
      · have ahead : travelOf v = .forward := by simp [travelOf, pos]
        have down : ¬v < 0 := by omega
        by_cases hd : dest = hi <;> simp [ahead, pos, down, hd]
  rw [reach]
  rcases reached with _ | _ | _
  · rw [if_neg (mt up.mpr (by simp)), if_neg (mt down.mpr (by simp))]
  · rw [if_pos (up.mp rfl)]
  · rw [if_neg (mt up.mpr (by simp)), if_pos (down.mp rfl)]

/-- What a sub-step's ramp and step come to, as `State.moves` has it. -/
theorem resolve_moves {s : State} {c : ChannelId} {x : TrainId} {lo hi h : Nat} {hop : Option (Nat × Nat)}
    {reached : Option Direction} (hle : lo ≤ hi) (moves : s.moves c x lo hi h hop reached) :
    let v := (s.channel c).rampedFrom (s.channel c).speed
    resolve (s.train x) lo hi ((s.channel c).head + v * (s.train x).multiple) v (travelOf v) = ⟨h, reached, hop⟩ := by
  obtain ⟨dest, lands, fore, back, up, down⟩ := moves
  dsimp only
  rw [resolve_eq hle lands (fun ht => fore (travelOf_forward ht)) (fun ht => back (travelOf_reverse ht)),
    boundReached_eq up down]

theorem displaced_iff {s : State} {c : ChannelId} {x : TrainId} {lo hi : Nat} :
    displaced (s.train x) (s.channel c).source lo hi (s.channel c).head = true ↔ s.leftOff c x lo hi := by
  unfold displaced State.leftOff
  rw [Bool.or_eq_true, inHole_iff]
  refine or_congr Iff.rfl ?_
  cases hs : (s.channel c).source with
  | clip id i =>
    dsimp only
    rw [decide_eq_true_eq]
    exact ⟨fun h => ⟨⟨id, i, rfl⟩, h⟩, And.right⟩
  | noSource => simp
  | train x => simp

/-! ## The frames a present shows (R61 to R63) -/

theorem pageOf_of_retained {t : Train} {n : Nat} (h : t.retained n = true) : ∃ p, t.pageOf n = some p := by
  have found : (t.entryOf n).isSome = true := by
    simpa [Train.entryOf, Train.retained, List.find?_isSome] using h
  obtain ⟨e, he⟩ := Option.isSome_iff_exists.mp found
  exact ⟨_, by rw [Train.pageOf, he]; rfl⟩

/-- With blend off one frame is shown, the nearer of the two that may be (R62). -/
theorem framesOf_plain (t : Train) (hi h : Nat) : framesOf t hi h false =
    (if (h + 600) / 1200 ≤ hi ∧ t.retained ((h + 600) / 1200) = true then (h + 600) / 1200 else h / 1200, none, 0) :=
  rfl

/-- With blend on the next frame is mixed in where it may be shown (R61). -/
theorem framesOf_blend (t : Train) (hi h : Nat) : framesOf t hi h true =
    if 1 ≤ h % 1200 * 256 / 1200 ∧ t.retained (h / 1200 + 1) = true ∧ h / 1200 + 1 ≤ hi then
      (h / 1200, some (h / 1200 + 1), h % 1200 * 256 / 1200)
    else (h / 1200, none, 0) := rfl

/-- The frames shown of a settled head on a retained frame. -/
theorem framesOf_shown {t : Train} {hi head : Nat} (blend : Bool) (h : t.retained (head / 1200) = true) :
    ∃ page, t.pageOf (framesOf t hi head blend).1 = some page := by
  refine pageOf_of_retained ?_
  cases blend with
  | true => rw [framesOf_blend]; split <;> exact h
  | false =>
    rw [framesOf_plain]
    dsimp only
    split
    · next ok => exact ok.2
    · exact h

/-- What a channel on train x shows when its head stands on a retained frame. -/
theorem frameShown_shows {s : State} {c : ChannelId} {x : TrainId} {lo hi : Nat}
    (hx : s.sourceTrain (s.channel c).source = some x) (hb : s.bounds (s.channel c).source = some (lo, hi))
    (kept : (s.train x).retained ((s.channel c).head / 1200) = true) :
    ∃ f, s.frameShown c = some f ∧ s.shows c x hi (s.channel c).head f := by
  obtain ⟨page, hp⟩ := framesOf_shown (hi := hi) (s.channel c).blend kept
  unfold State.frameShown
  simp only [hx, hb, hp, Option.map_some]
  refine ⟨_, rfl, rfl, rfl, hp, fun blend => ?_, fun plain => ?_⟩
  · dsimp only
    rw [blend, framesOf_blend]
    refine ⟨by split <;> rfl, fun two => ?_, fun one => ?_⟩
    · rw [if_pos two]; exact ⟨rfl, rfl⟩
    · rw [if_neg one]; exact ⟨rfl, rfl⟩
  · dsimp only
    rw [plain, framesOf_plain]
    refine ⟨rfl, rfl, fun le held => if_pos ⟨le, held⟩, fun out => if_neg fun ok => ?_⟩
    rcases out with out | out
    · omega
    · rw [ok.2] at out; cases out

end Sys2Proof.Machine
end

section
/-! Sub-steps (R51 to R57) and the bound events of spec 04 (R81 to R90, R109): the normal form of each, and what a
sub-step of a channel comes to. -/

namespace Sys2Proof.Machine

/-! ## Notes that begin with reports -/

theorem bodiesOf_reports_append (size : Nat) (bs : List ReportBody) (l : List Note) :
    bodiesOf size (bs.map .report ++ l) = bs ++ bodiesOf size l := by
  induction bs with
  | nil => rfl
  | cons b rest ih => exact congrArg (b :: ·) ih

/-- One channel operation from s, as the statements about sub-steps have it. -/
theorem subStepped_of_played {s : State} {c : ChannelId} {new : Channel} {q : PlayQueue} {f : ArmState → ArmState}
    {notes : List Note} {log : List RunEntry} {bodies : List ReportBody} (h : s.runLog.entries.length ≤ 256)
    (entries : entriesOf notes = log) (told : bodiesOf s.runLog.entries.length notes = bodies) :
    s.subStepped (s.played c new q f notes s.freeReads) c new q log f bodies :=
  ⟨played_channel_self .., played_queue_self .., entries ▸ played_logged h, told ▸ played_raised h, played_keepsOthers,
    ⟨rfl, rfl, rfl, rfl⟩, ⟨rfl, rfl⟩, ⟨rfl, rfl⟩, ⟨rfl, rfl, rfl, rfl, rfl, rfl, rfl⟩, rfl,
    fun _ hq => rearm_panel_unbound f hq, fun law _ hq => rearm_panel_bound law f hq⟩

/-! ## Sessions counted and ended inside a request -/

section sessions

variable (s : State) (c : ChannelId) (n : Nat)

theorem countPresent_eq_played (room : s.roomLeft c) :
    s.countPresent c n = s.played c (s.channel c) (s.countedQueue c n) id [] s.freeReads := by
  unfold State.countPresent State.countedQueue
  cases h : (s.queue c).session with
  | none =>
    have same : { s.queue c with session := Option.map (fun r : Session => r.counted n) none } = s.queue c := by
      rcases hq : s.queue c with ⟨a, b, g⟩
      simp_all
    rw [same]
    exact (played_self s c).symm
  | some r =>
    have small : r.presented < 4294967295 := room r h
    simp only [small, decide_true, if_true, Option.map_some]
    exact setQueue_eq_played ..

theorem setQueue_free_eq_played (free : Nat) (q : PlayQueue) :
    State.setQueue { s with freeReads := free } c q = s.played c (s.channel c) q id [] free := by
  simp [State.played, State.setQueue, State.channel]

/-- Whatever the count, counting a present keeps the queue but for its session. -/
theorem countPresent_played : ∃ r free,
    s.countPresent c n = s.played c (s.channel c) { s.queue c with session := r } id [] free := by
  unfold State.countPresent
  cases h : (s.queue c).session with
  | none =>
    refine ⟨none, s.freeReads, ?_⟩
    have same : { s.queue c with session := none } = s.queue c := by
      rcases hq : s.queue c with ⟨a, b, g⟩
      simp_all
    rw [same]
    exact (played_self s c).symm
  | some r =>
    dsimp only
    exact ⟨_, _, setQueue_free_eq_played ..⟩

/-- A session that ends inside a request counts that request first (R174). -/
theorem endSession_completed (room : s.roomLeft c) : s.endSession c .complete (some n) =
    s.played c (s.channel c) { s.queue c with session := none } id ((s.completedBy c n).map .entry) s.freeReads := by
  have counted : s.endSession c .complete (some n) = (s.countPresent c n).endSession c .complete none := rfl
  rw [counted, countPresent_eq_played s c n room, endSession_none_eq_played]
  have same : ∀ r : Session, (r.counted n).clip = r.clip ∧ (r.counted n).train = r.train := fun _ => ⟨rfl, rfl⟩
  cases h : (s.queue c).session <;> simp [State.endedOn, State.completedBy, State.countedQueue, h, same]

end sessions

/-! ## Bound events -/

/-- A channel's record once it has stopped in CUED where it stands (R82, R85). -/
def Channel.halted (ch : Channel) : Channel :=
  { ch with
    state := .cued, speed := 0, target := 0, bounce := none, jogAcc := ch.jogLeft
    edgeHold := if ch.state = .shuttle then false else ch.edgeHold }

/-- A channel's record once it has caught up with the record edge (R81). -/
def Channel.caught (ch : Channel) : Channel :=
  { ch with
    state := .live, speed := 1200, target := 1200, liveDelay := 0, bounce := none, edgeHold := false
    jogAcc := ch.jogLeft }

/-- A channel's record once the dead-man has rested it in CUED (R109). -/
def Channel.rested (ch : Channel) : Channel := { ch with state := .cued, speed := 0, target := 0, edgeHold := false }

section events

variable (s : State) (c : ChannelId)

theorem stoppedChannel_eq : s.stoppedChannel c = (s.channel c).halted := rfl

theorem cuedAtLo_eq_played : s.cuedAtLo c = s.played c (s.channel c).halted (s.queue c)
    (leaveArm (s.channel c).state .cued) ((s.changeReport c (s.channel c).halted .bound).map .report) s.freeReads := by
  unfold State.cuedAtLo
  simp [commit_eq_played, Channel.leave, Channel.enter, Channel.jogLeft, Channel.halted, State.changeReport]

theorem stopAtBound_eq_played (n : Nat) (room : s.roomLeft c) : s.stopAtBound c n =
    s.played c (s.channel c).halted { s.queue c with session := none } (leaveArm (s.channel c).state .cued)
      ((s.completedBy c n).map .entry ++ (s.changeReport c (s.channel c).halted .endAction).map .report)
      s.freeReads := by
  unfold State.stopAtBound
  simp [endSession_completed s c n room, commit_eq_played, Channel.leave, Channel.enter, Channel.jogLeft,
    Channel.halted, State.changeReport]

theorem catchUp_eq_played (x : TrainId) : s.catchUp c x = s.played c (s.channel c).caught (s.queue c)
    (fun _ => .disarmed) (.report (.caughtUp c x ((s.channel c).head / 1200)) ::
      (s.changeReport c (s.channel c).caught .catchUp).map .report) s.freeReads := by
  unfold State.catchUp
  simp only [disarm_eq_rearm, rearm_eq_played _ c, raise_eq_played _ c, commit_eq_played, played_played,
    played_channel_self, played_queue_self]
  simp [Channel.leave, Channel.enter, Channel.jogLeft, Channel.caught, State.changeReport, Function.comp_def,
    Config.sfu]

theorem holdEdge_eq_played (d : Direction) : s.holdEdge c d =
    s.played c { s.channel c with speed := 0, edgeHold := true } (s.queue c) id
      ((if (s.channel c).edgeHold then [] else
        [.edgeHold c (decide (d = .forward)) ((s.channel c).head / 1200)]).map .report) s.freeReads := by
  unfold State.holdEdge
  simp only [raise_eq_played _ c, setChannel_eq_played]
  cases h : (s.channel c).edgeHold <;> simp [Config.sfu]

end events

/-! ## Sub-steps -/

section subStep

variable {s : State} {c : ChannelId} {n : Nat} {first : Bool}

/-- The sub-step applies the jog (R52). -/
def State.jogging (s : State) (c : ChannelId) (first : Bool) : Bool := first && decide ((s.channel c).state = .jog)

/-- A channel's record after the ramp of a sub-step (R53). -/
def State.ramped (s : State) (c : ChannelId) (first : Bool) : Channel :=
  { s.channel c with
    speed := (s.channel c).rampedFrom (s.channel c).speed
    jogAcc := if s.jogging c first then 0 else (s.channel c).jogAcc }

theorem jogging_eq_false (h : first = true → (s.channel c).state ≠ .jog) : s.jogging c first = false := by
  cases first
  · rfl
  · simp [State.jogging, h rfl]

theorem ramped_eq (h : first = true → (s.channel c).state ≠ .jog) :
    s.ramped c first = { s.channel c with speed := (s.channel c).rampedFrom (s.channel c).speed } := by
  simp [State.ramped, jogging_eq_false h]

/-- Where no dead-man rests the channel, the ramp is all that comes before the step (R109). -/
theorem deadManRest_of_armed (h : (s.channel c).state = .shuttle → (s.ramped c first).speed = 0 →
    ∀ q, (s.panel q).binding = some c → (s.panel q).arm ≠ .lost) :
    (s.setChannel c (s.ramped c first)).deadManRest c =
      s.played c (s.ramped c first) (s.queue c) id [] s.freeReads := by
  rw [setChannel_eq_played]
  unfold State.deadManRest
  split
  · next p hp =>
    rw [played_boundPanel] at hp
    rw [if_neg]
    rintro ⟨st, lost, still⟩
    rw [played_channel_self] at st still
    rw [played_panel, rearm_id] at lost
    exact h st still p (boundPanel_binding hp) lost
  · rfl

/-- The dead-man rests a channel whose LOST panel has ramped it down (R109, R111). -/
theorem deadManRest_of_lost {p : PanelId} (law : s.tableLaw) (st : (s.channel c).state = .shuttle)
    (bound : (s.panel p).binding = some c) (lost : (s.panel p).arm = .lost) (still : (s.ramped c first).speed = 0) :
    (s.setChannel c (s.ramped c first)).deadManRest c =
      s.played c (s.channel c).rested (s.queue c) ArmState.unlost
        ((s.changeReport c (s.channel c).rested .deadMan).map .report) s.freeReads := by
  have found : s.boundPanel c = some p := by
    cases hb : s.boundPanel c with
    | none => exact absurd bound (boundPanel_none hb p)
    | some q => rw [law.2.2.2 p q c bound (boundPanel_binding hb)]
  have mid : (s.ramped c first).state = .shuttle := st
  have jog : (s.ramped c first).jogAcc = (s.channel c).jogAcc := by simp [State.ramped, State.jogging, st]
  rw [setChannel_eq_played]
  unfold State.deadManRest
  simp only [played_boundPanel, found, played_channel_self, played_panel, rearm_id, mid, lost, still, and_self, if_true,
    commit_eq_played]
  simp [Channel.leave, Channel.enter, State.ramped, State.jogging, st, leaveArm, State.changeReport, Channel.rested]

/-- What follows the ramp of a sub-step: the step from a head h, and the resolution of bounds and holes (R54 to R56). -/
def State.stepFrom (s : State) (c : ChannelId) (n : Nat) (jogging : Bool) (h acc : Int) : State :=
  let ch := s.channel c
  match s.sourceTrain ch.source, s.bounds ch.source with
  | some x, some (lo, hi) =>
    if !jogging && displaced (s.train x) ch.source lo hi ch.head then s.boundEvent c n lo none
    else
      let travel : Direction :=
        if 0 < ch.speed then .forward
        else if ch.speed < 0 then .reverse
        else if jogging && decide (acc < 0) then .reverse
        else .forward
      let r := resolve (s.train x) lo hi (h + ch.speed * (s.train x).multiple) ch.speed travel
      (((s.setChannel c { ch with head := r.head }).noted ((holeReports c x r.snap).map .report))).boundEvent c n lo
        r.reached
  | _, _ => s

/-- A sub-step ramps, lets the dead-man rest the channel, and steps (R51). -/
theorem subStep_eq (s : State) (c : ChannelId) (n : Nat) (first : Bool) : s.subStep c n first =
    ((s.setChannel c (s.ramped c first)).deadManRest c).stepFrom c n (s.jogging c first)
      (if s.jogging c first then (s.channel c).jogged else (s.channel c).head) (s.channel c).jogAcc := by
  unfold State.subStep State.stepFrom
  have snap : ∀ (u : State) (x : TrainId) (o : Option (Nat × Nat)),
      u.noted ((holeReports c x o).map .report) = match o with
        | some (a, b) => u.raise (.holeSkipped c x a b)
        | none => u := by
    intro u x o
    cases o <;> rfl
  simp only [snap]
  rfl

variable {x : TrainId} {lo hi : Nat} {mid : Channel} {f : ArmState → ArmState} {notes : List Note}

/-- The rest of a sub-step of a displaced head: it is not stepped and reaches nothing (log 38). -/
theorem subStep_off
    (start : (s.setChannel c (s.ramped c first)).deadManRest c = s.played c mid (s.queue c) f notes s.freeReads)
    (nojog : first = true → (s.channel c).state ≠ .jog) (head : mid.head = (s.channel c).head)
    (source : mid.source = (s.channel c).source) (hx : s.sourceTrain (s.channel c).source = some x)
    (hb : s.bounds (s.channel c).source = some (lo, hi)) (off : s.leftOff c x lo hi) :
    s.subStep c n first = (s.played c mid (s.queue c) f notes s.freeReads).boundEvent c n lo none := by
  have jog := jogging_eq_false nojog
  rw [subStep_eq, start, State.stepFrom]
  simp only [played_channel_self, played_sourceTrain, played_bounds, source, hx, hb, jog, played_train, head,
    displaced_iff.mpr off, Bool.not_false, Bool.and_self, if_true]

/-- The rest of a sub-step that steps: the head resolved, the snap reported, the bound handed on (R51, R54 to R56). -/
theorem subStep_moved
    (start : (s.setChannel c (s.ramped c first)).deadManRest c = s.played c mid (s.queue c) f notes s.freeReads)
    (source : mid.source = (s.channel c).source) (hx : s.sourceTrain (s.channel c).source = some x)
    (hb : s.bounds (s.channel c).source = some (lo, hi))
    (on : s.jogging c first = true ∨ mid.head = (s.channel c).head ∧ ¬s.leftOff c x lo hi) {r : Resolved}
    (resolved : resolve (s.train x) lo hi
      ((if s.jogging c first then (s.channel c).jogged else (s.channel c).head) + mid.speed * (s.train x).multiple)
      mid.speed (if 0 < mid.speed then .forward else if mid.speed < 0 then .reverse
        else if s.jogging c first && decide ((s.channel c).jogAcc < 0) then .reverse else .forward) = r) :
    s.subStep c n first = (s.played c { mid with head := r.head } (s.queue c) f
      (notes ++ (holeReports c x r.snap).map .report) s.freeReads).boundEvent c n lo r.reached := by
  have step : (!s.jogging c first && displaced (s.train x) (s.channel c).source lo hi mid.head) = false := by
    rcases on with jog | ⟨head, stay⟩
    · simp [jog]
    · rw [head, Bool.and_eq_false_iff]
      exact .inr (by simpa only [Bool.not_eq_true] using mt displaced_iff.mp stay)
  rw [subStep_eq, start, State.stepFrom]
  simp only [played_channel_self, played_sourceTrain, played_bounds, source, hx, hb, played_train, step,
    Bool.false_eq_true, if_false, resolved, setChannel_eq_played, noted_eq_played _ c, played_played, played_queue_self,
    played_freeReads, List.append_nil, Function.id_comp]

end subStep

/-! ## What a bound event comes to, state by state -/

section dispatch

variable {s : State} {c : ChannelId} {n lo : Nat}

theorem boundEvent_shuttle_none (st : (s.channel c).state = .shuttle) :
    s.boundEvent c n lo none = s.setChannel c { s.channel c with edgeHold := false } := by
  unfold State.boundEvent
  simp only [st]

theorem boundEvent_none (st : (s.channel c).state ≠ .shuttle) : s.boundEvent c n lo none = s := by
  unfold State.boundEvent
  dsimp only
  split <;> simp_all

/-- In the states that hand no bound on, a sub-step comes to its move alone (Table 4-4). -/
theorem boundEvent_idle (d : Option Direction) (playing : (s.channel c).state ≠ .playing)
    (shuttle : (s.channel c).state ≠ .shuttle) : s.boundEvent c n lo d = s := by
  unfold State.boundEvent
  dsimp only
  split <;> simp_all

theorem boundEvent_clip {id i : Nat} (d : Direction) (st : (s.channel c).state = .playing)
    (src : (s.channel c).source = .clip id i) : s.boundEvent c n lo (some d) = s.clipBound c n lo d := by
  unfold State.boundEvent
  simp only [st, src]

theorem boundEvent_train_up {x : TrainId} (st : (s.channel c).state = .playing)
    (src : (s.channel c).source = .train x) :
    s.boundEvent c n lo (some .forward) = if 1200 ≤ (s.channel c).speed then s.catchUp c x else s := by
  unfold State.boundEvent
  simp only [st, src]

theorem boundEvent_train_down {x : TrainId} (st : (s.channel c).state = .playing)
    (src : (s.channel c).source = .train x) : s.boundEvent c n lo (some .reverse) = s.cuedAtLo c := by
  unfold State.boundEvent
  simp only [st, src]

theorem boundEvent_shuttle_catch {x : TrainId} (st : (s.channel c).state = .shuttle)
    (src : (s.channel c).source = .train x) (fast : 1200 ≤ (s.channel c).speed) :
    s.boundEvent c n lo (some .forward) = s.catchUp c x := by
  unfold State.boundEvent
  simp only [st, src, if_pos fast]

theorem boundEvent_shuttle_hold (d : Direction) (st : (s.channel c).state = .shuttle)
    (held : d = .forward → ∀ x, (s.channel c).source = .train x → (s.channel c).speed < 1200) :
    s.boundEvent c n lo (some d) = s.holdEdge c d := by
  unfold State.boundEvent
  cases d with
  | reverse => simp only [st]
  | forward =>
    cases hs : (s.channel c).source with
    | train x => simp only [st, hs, if_neg (Int.not_le.mpr (held rfl x hs))]
    | noSource => simp only [st, hs]
    | clip id i => simp only [st, hs]

end dispatch

end Sys2Proof.Machine
end

section
/-! What a sub-step of a channel comes to (R51 to R57, R81 to R90, R109). -/

namespace Sys2Proof.Machine

/-! ## The step of a sub-step -/

/-- The state once the ramp and the step have moved channel c's head, with the hole skipped reported. -/
abbrev State.moved (s : State) (c : ChannelId) (v : Int) (h : Nat) (bodies : List ReportBody) : State :=
  s.played c { s.channel c with speed := v, head := h } (s.queue c) id (bodies.map .report) s.freeReads

section moves

variable {s : State} {c : ChannelId} {n : Nat} {first : Bool} {x : TrainId} {lo hi h : Nat}
  {hop : Option (Nat × Nat)} {reached : Option Direction}

/-- What follows a move, as the statements about sub-steps have it. -/
theorem subStepped_after {v : Int} {bodies more : List ReportBody} {t : State} {new : Channel} {q : PlayQueue}
    {f arm : ArmState → ArmState} {notes : List Note} {log : List RunEntry} {new' : Channel}
    (size : s.runLog.entries.length ≤ 256)
    (ht : t = (s.moved c v h bodies).played c new q f notes s.freeReads) (hn : new = new') (hf : f = arm)
    (entries : entriesOf notes = log) (told : bodiesOf s.runLog.entries.length notes = more) :
    s.subStepped t c new' q log arm (bodies ++ more) := by
  subst ht hn hf
  rw [played_played]
  refine subStepped_of_played size ?_ ?_
  · rw [entriesOf_append, entriesOf_reports]
    exact entries
  · rw [bodiesOf_reports_append, told]

/-- What follows a move and notes nothing. -/
theorem subStepped_after_quiet {v : Int} {bodies : List ReportBody} {new : Channel} {q : PlayQueue}
    {f : ArmState → ArmState} (size : s.runLog.entries.length ≤ 256) :
    s.subStepped ((s.moved c v h bodies).played c new q f [] s.freeReads) c new q [] f bodies := by
  have done := subStepped_after (c := c) (v := v) (h := h) (bodies := bodies) (new := new) (q := q) (f := f) (notes := []) size rfl
    rfl rfl rfl rfl
  rwa [bodiesOf, List.append_nil] at done

/-- A sub-step that is neither a jog nor the end of a ramp-down, from a head that is not displaced. -/
theorem subStep_resolved (nojog : first = true → (s.channel c).state ≠ .jog)
    (armed : (s.channel c).state = .shuttle → (s.channel c).rampedFrom (s.channel c).speed = 0 →
      ∀ q, (s.panel q).binding = some c → (s.panel q).arm ≠ .lost)
    (hx : s.sourceTrain (s.channel c).source = some x) (hb : s.bounds (s.channel c).source = some (lo, hi))
    (stay : ¬s.leftOff c x lo hi) (resolved : let v := (s.channel c).rampedFrom (s.channel c).speed
      resolve (s.train x) lo hi ((s.channel c).head + v * (s.train x).multiple) v (travelOf v) = ⟨h, reached, hop⟩) :
    s.subStep c n first =
      (s.moved c ((s.channel c).rampedFrom (s.channel c).speed) h (holeReports c x hop)).boundEvent c n lo reached := by
  have jog := jogging_eq_false nojog
  refine (subStep_moved (deadManRest_of_armed armed) rfl hx hb (.inr ⟨rfl, stay⟩) (r := ⟨h, reached, hop⟩) ?_).trans ?_
  · simp only [jog, Bool.false_eq_true, if_false, Bool.false_and]
    exact resolved
  · rw [ramped_eq nojog]
    rfl

/-- Such a sub-step moves as `State.moves` has it. -/
theorem subStep_moves (nojog : first = true → (s.channel c).state ≠ .jog)
    (armed : (s.channel c).state = .shuttle → (s.channel c).rampedFrom (s.channel c).speed = 0 →
      ∀ q, (s.panel q).binding = some c → (s.panel q).arm ≠ .lost)
    (hx : s.sourceTrain (s.channel c).source = some x) (hb : s.bounds (s.channel c).source = some (lo, hi))
    (hle : lo ≤ hi) (stay : ¬s.leftOff c x lo hi) (moves : s.moves c x lo hi h hop reached) :
    s.subStep c n first =
      (s.moved c ((s.channel c).rampedFrom (s.channel c).speed) h (holeReports c x hop)).boundEvent c n lo reached :=
  subStep_resolved nojog armed hx hb stay (resolve_moves hle moves)

/-- A sub-step of a displaced head ramps the speed alone (log 38). -/
theorem subStep_displaced (nojog : first = true → (s.channel c).state ≠ .jog)
    (armed : (s.channel c).state = .shuttle → (s.channel c).rampedFrom (s.channel c).speed = 0 →
      ∀ q, (s.panel q).binding = some c → (s.panel q).arm ≠ .lost)
    (hx : s.sourceTrain (s.channel c).source = some x) (hb : s.bounds (s.channel c).source = some (lo, hi))
    (off : s.leftOff c x lo hi) : s.subStep c n first =
      (s.moved c ((s.channel c).rampedFrom (s.channel c).speed) (s.channel c).head []).boundEvent c n lo none := by
  refine (subStep_off (deadManRest_of_armed armed) nojog rfl rfl hx hb off).trans ?_
  rw [ramped_eq nojog]
  rfl

/-- A sub-step that hands no bound on clears the edge-hold flag of SHUTTLE, and does nothing more (R83). -/
theorem boundEvent_unreached {lo : Nat}
    (quiet : (s.channel c).state = .playing ∨ (s.channel c).state = .shuttle → reached = none) :
    s.boundEvent c n lo reached = s.played c { s.channel c with
      edgeHold := if (s.channel c).state = .shuttle then false else (s.channel c).edgeHold } (s.queue c) id []
      s.freeReads := by
  by_cases shuttle : (s.channel c).state = .shuttle
  · rw [quiet (.inr shuttle), boundEvent_shuttle_none shuttle, setChannel_eq_played, if_pos shuttle]
  · rw [if_neg shuttle]
    by_cases playing : (s.channel c).state = .playing
    · rw [quiet (.inl playing), boundEvent_none shuttle]
      exact (played_self s c).symm
    · rw [boundEvent_idle _ playing shuttle]
      exact (played_self s c).symm

/-- At the high bound the head stands on the bound, and it moved forward. -/
theorem moves_up (hle : lo ≤ hi) (kept : (s.train x).retained hi = true)
    (moves : s.moves c x lo hi h hop (some .forward)) :
    h = hi * 1200 ∧ 0 < (s.channel c).rampedFrom (s.channel c).speed := by
  obtain ⟨dest, ⟨stay, snap⟩, -, -, up, -⟩ := moves
  obtain ⟨pos, reach | ⟨hole, dest⟩⟩ := up.mp rfl
  · have clamp : clampedHead lo hi ((s.channel c).head +
        (s.channel c).rampedFrom (s.channel c).speed * (s.train x).multiple) = hi * 1200 := by
      unfold clampedHead
      split
      · rfl
      · rw [if_neg (by omega)]
        omega
    rw [clamp] at stay
    exact ⟨(stay (by rw [Nat.mul_div_cancel _ (by decide)]; exact kept)).1, pos⟩
  · exact ⟨dest ▸ (snap hole).1, pos⟩

/-- At the low bound likewise, and it moved in reverse. -/
theorem moves_down (hle : lo ≤ hi) (kept : (s.train x).retained lo = true)
    (moves : s.moves c x lo hi h hop (some .reverse)) :
    h = lo * 1200 ∧ (s.channel c).rampedFrom (s.channel c).speed < 0 := by
  obtain ⟨dest, ⟨stay, snap⟩, -, -, -, down⟩ := moves
  obtain ⟨neg, reach | ⟨hole, dest⟩⟩ := down.mp rfl
  · have clamp : clampedHead lo hi ((s.channel c).head +
        (s.channel c).rampedFrom (s.channel c).speed * (s.train x).multiple) = lo * 1200 := by
      unfold clampedHead
      rw [if_neg (by omega)]
      split
      · rfl
      · omega
    rw [clamp] at stay
    exact ⟨(stay (by rw [Nat.mul_div_cancel _ (by decide)]; exact kept)).1, neg⟩
  · exact ⟨dest ▸ (snap hole).1, neg⟩

end moves

/-- Settles O49: the sub-step's move, resolved, and no bound handed on. -/
theorem jogsAndHoles : Obligations.JogsAndHoles := by
  intro c n first s x lo hi hx hb hle size
  refine ⟨fun h dest hop isFirst jog speed target lands fore back => ?_, fun states nojog armed => ⟨fun off => ?_,
    fun h hop reached stay moves quiet => ?_⟩⟩
  · have jogging : s.jogging c first = true := by simp [State.jogging, isFirst, jog]
    have still : (s.ramped c first).speed = 0 := by
      show (s.channel c).rampedFrom (s.channel c).speed = 0
      simp [Channel.rampedFrom, speed, target]
    have start := deadManRest_of_armed (s := s) (c := c) (first := first) fun shuttle => by simp [jog] at shuttle
    have moved := subStep_moved (n := n) start rfl hx hb (.inl jogging) (r := ⟨h, none, hop⟩) (by
      rw [still, jogging]
      simp only [if_true, Bool.true_and, lt_irrefl, if_false, zero_mul, add_zero]
      refine (resolve_eq hle lands (fun ht => fore ?_) fun ht => back ?_).trans ?_
      · by_contra neg
        rw [if_pos (by simpa using neg)] at ht
        cases ht
      · by_contra pos
        rw [if_neg (by simpa using pos)] at ht
        cases ht
      · have none : stepReaches lo hi (s.channel c).jogged 0 = none := by simp [stepReaches]
        have steps : (((s.channel c).head / 1200 : Nat) + (s.channel c).jogAcc) * 1200 = (s.channel c).jogged := rfl
        rw [steps]
        unfold boundReached
        split
        · rw [none]
        · split <;> simp [none])
    have record : { s.ramped c first with head := h } = { s.channel c with head := h, jogAcc := 0 } := by
      have speed' := still.trans speed.symm
      simp only [State.ramped, jogging, if_true] at speed' ⊢
      rw [speed']
    rw [moved, boundEvent_idle _ (by simp [State.ramped, jog]) (by simp [State.ramped, jog]), List.nil_append]
    exact record ▸ subStepped_of_played size (entriesOf_reports _) (bodiesOf_reports ..)
  · rw [subStep_displaced nojog armed hx hb off, boundEvent_unreached (fun _ => rfl)]
    simp only [played_channel_self, played_queue_self, played_freeReads]
    exact subStepped_after_quiet size
  · rw [subStep_moves nojog armed hx hb hle stay moves, boundEvent_unreached (by simpa using quiet)]
    simp only [played_channel_self, played_queue_self, played_freeReads]
    exact subStepped_after_quiet size

/-! ## Bounds reached -/

section bounds

variable {s : State} {c : ChannelId} {n : Nat} {v : Int} {h : Nat} {bodies : List ReportBody}

theorem effectiveEnd_clip {id i : Nat} (src : (s.channel c).source = .clip id i) :
    (s.moved c v h bodies).effectiveEnd c = if (s.queue c).playing then .next
      else ((s.clipOf id).bind (·.endAction)).getD (s.channel c).endAction := by
  unfold State.effectiveEnd
  simp [src]

/-- The report of a stop in CUED, after a move. -/
theorem moved_halted_report (cause : Cause) (st : (s.channel c).state = .playing) :
    (s.moved c v h bodies).changeReport c ((s.moved c v h bodies).channel c).halted cause =
      [.stateChanged c (s.channel c).state .cued ⟨(s.channel c).source, s.sourceTrain (s.channel c).source⟩
        (h / 1200) cause] := by
  simp [State.changeReport, Channel.halted, st]

theorem moved_halted (st : (s.channel c).state = .playing) : ((s.moved c v h bodies).channel c).halted =
    { s.channel c with state := .cued, head := h, speed := 0, target := 0, bounce := none } := by
  simp [Channel.halted, Channel.jogLeft, st]

/-- A stop at a bound without the session ending (R82). -/
theorem cuedAtLo_stepped (size : s.runLog.entries.length ≤ 256) (st : (s.channel c).state = .playing) :
    s.subStepped ((s.moved c v h bodies).cuedAtLo c) c
      { s.channel c with state := .cued, head := h, speed := 0, target := 0, bounce := none } (s.queue c) []
      (fun a => a) (bodies ++ [.stateChanged c (s.channel c).state .cued
        ⟨(s.channel c).source, s.sourceTrain (s.channel c).source⟩ (h / 1200) .bound]) := by
  have normal := cuedAtLo_eq_played (s.moved c v h bodies) c
  rw [moved_halted_report .bound st, played_queue_self] at normal
  refine subStepped_after size normal ?_ ?_ (entriesOf_reports _) (bodiesOf_reports ..)
  · exact moved_halted st
  · rw [leaveArm_of_ne (by simp [st])]
    rfl

/-- A stop at a bound that ends the session COMPLETE (R85, R89). -/
theorem stopAtBound_stepped (size : s.runLog.entries.length ≤ 256) (room : s.roomLeft c)
    (st : (s.channel c).state = .playing) : s.subStepped ((s.moved c v h bodies).stopAtBound c n) c
      { s.channel c with state := .cued, head := h, speed := 0, target := 0, bounce := none }
      { s.queue c with session := none } (s.completedBy c n) (fun a => a)
      (bodies ++ (appendReports s.runLog.entries.length (s.completedBy c n) ++
        [.stateChanged c (s.channel c).state .cued ⟨(s.channel c).source, s.sourceTrain (s.channel c).source⟩
          (h / 1200) .endAction])) := by
  have normal := stopAtBound_eq_played (s.moved c v h bodies) c n
    (fun r hr => room r (by simpa using hr))
  have log : (s.moved c v h bodies).completedBy c n = s.completedBy c n := by simp [State.completedBy]
  rw [moved_halted_report .endAction st, played_queue_self, log] at normal
  refine subStepped_after size normal ?_ ?_ ?_ (bodiesOf_entries_reports ..)
  · exact moved_halted st
  · rw [leaveArm_of_ne (by simp [st])]
    rfl
  · rw [entriesOf_append, entriesOf_entries, entriesOf_reports, List.append_nil]

/-- A write of the channel's record alone, after a move. -/
theorem setChannel_stepped {new : Channel} (size : s.runLog.entries.length ≤ 256) :
    s.subStepped ((s.moved c v h bodies).setChannel c new) c new (s.queue c) [] (fun a => a) bodies := by
  rw [setChannel_eq_played, played_queue_self]
  exact subStepped_after_quiet size

theorem moved_stepped (size : s.runLog.entries.length ≤ 256) : s.subStepped (s.moved c v h bodies) c
    { s.channel c with speed := v, head := h } (s.queue c) [] (fun a => a) bodies :=
  subStepped_of_played size (entriesOf_reports _) (bodiesOf_reports ..)

/-- A catch-up to live (R81). -/
theorem catchUp_stepped {x : TrainId} (size : s.runLog.entries.length ≤ 256)
    (st : (s.channel c).state = .playing ∨ (s.channel c).state = .shuttle) :
    s.subStepped ((s.moved c v h bodies).catchUp c x) c
      { s.channel c with
        state := .live, head := h, speed := 1200, target := 1200, liveDelay := 0, bounce := none, edgeHold := false }
      (s.queue c) [] (fun _ => .disarmed)
      (bodies ++ [.caughtUp c x (h / 1200), .stateChanged c (s.channel c).state .live
        ⟨(s.channel c).source, s.sourceTrain (s.channel c).source⟩ (h / 1200) .catchUp]) := by
  have normal := catchUp_eq_played (s.moved c v h bodies) c x
  have changed : (s.moved c v h bodies).changeReport c ((s.moved c v h bodies).channel c).caught .catchUp =
      [.stateChanged c (s.channel c).state .live ⟨(s.channel c).source, s.sourceTrain (s.channel c).source⟩
        (h / 1200) .catchUp] := by
    rcases st with st | st <;> simp [State.changeReport, Channel.caught, st]
  rw [changed, played_queue_self] at normal
  refine subStepped_after (notes := [.report _, .report _]) size normal ?_ rfl rfl (by rw [played_channel_self]; rfl)
  rcases st with st | st <;> simp [Channel.caught, Channel.jogLeft, st]

/-- An edge hold (R83). -/
theorem holdEdge_stepped {d : Direction} (size : s.runLog.entries.length ≤ 256) :
    s.subStepped ((s.moved c v h bodies).holdEdge c d) c
      { s.channel c with head := h, speed := 0, edgeHold := true } (s.queue c) [] (fun a => a)
      (bodies ++ if (s.channel c).edgeHold then [] else [.edgeHold c (decide (d = .forward)) (h / 1200)]) := by
  have normal := holdEdge_eq_played (s.moved c v h bodies) c d
  rw [played_queue_self] at normal
  refine subStepped_after size normal ?_ rfl (entriesOf_reports _) ((bodiesOf_reports ..).trans ?_)
  · rw [played_channel_self]
  · rw [played_channel_self]

end bounds

theorem serial_at (n : Nat) : n * 1200 / 1200 = n := Nat.mul_div_cancel _ (by decide)

/-- Settles O50: the move, the bound it reaches, and the event of the channel's state and source. -/
theorem boundsReached : Obligations.BoundsReached := by
  intro c n first s x lo hi h hop d hx hb hle keptLo keptHi room size stay moves
  have step : ∀ st, (s.channel c).state = st → st = .playing ∨ st = .shuttle → s.subStep c n first =
      (s.moved c ((s.channel c).rampedFrom (s.channel c).speed) h (holeReports c x hop)).boundEvent c n lo (some d) := by
    intro st is moving
    refine subStep_moves (fun _ jog => ?_) (fun _ still => ?_) hx hb hle stay moves
    · rw [jog] at is; rcases moving with h | h <;> simp [h] at is
    · cases d with
      | forward => exact absurd (moves_up hle keptHi moves).2 (by omega)
      | reverse => exact absurd (moves_down hle keptLo moves).2 (by omega)
  refine ⟨fun id i playing src => ?_, fun src => ⟨fun up fast st => ?_, fun up slow playing => ?_,
    fun down playing => ?_⟩⟩
  · have step := (step _ playing (.inl rfl)).trans (boundEvent_clip d (by simpa using playing) (by simpa using src))
    have action := effectiveEnd_clip (v := (s.channel c).rampedFrom (s.channel c).speed) (h := h)
      (bodies := holeReports c x hop) src
    unfold State.clipBound at step
    refine ⟨fun up off stop => ?_, fun up off loop => ?_, fun down other => ?_⟩
    · subst up
      obtain ⟨rfl, -⟩ := moves_up hle keptHi moves
      simp only [action, off, stop, Bool.false_eq_true, if_false] at step
      rw [step]
      have done := stopAtBound_stepped (n := n) (v := (s.channel c).rampedFrom (s.channel c).speed) (h := hi * 1200)
        (bodies := holeReports c x hop) size room playing
      rwa [hx, serial_at] at done
    · subst up
      simp only [action, off, loop, Bool.false_eq_true, if_false] at step
      rw [step]
      have done := setChannel_stepped (c := c) (v := (s.channel c).rampedFrom (s.channel c).speed) (h := h)
        (bodies := holeReports c x hop)
        (new := { s.channel c with head := lo * 1200, speed := (s.channel c).rampedFrom (s.channel c).speed }) size
      simpa [Config.sfu] using done
    · subst down
      obtain ⟨rfl, -⟩ := moves_down hle keptLo moves
      have event : s.subStep c n first = (s.moved c ((s.channel c).rampedFrom (s.channel c).speed) (lo * 1200)
          (holeReports c x hop)).cuedAtLo c := by
        rw [step, action]
        rcases other with on | other
        · rw [on]; rfl
        · cases (s.queue c).playing
          · revert other
            dsimp only
            cases ((s.clipOf id).bind (·.endAction)).getD (s.channel c).endAction <;> simp
          · rfl
      rw [event]
      have done := cuedAtLo_stepped (v := (s.channel c).rampedFrom (s.channel c).speed) (h := lo * 1200)
        (bodies := holeReports c x hop) size playing
      rwa [hx, serial_at] at done
  · subst up
    obtain ⟨rfl, -⟩ := moves_up hle keptHi moves
    have event : s.subStep c n first = (s.moved c ((s.channel c).rampedFrom (s.channel c).speed) (hi * 1200)
        (holeReports c x hop)).catchUp c x := by
      rcases st with playing | shuttle
      · rw [step _ playing (.inl rfl), boundEvent_train_up (by simpa using playing) (by simpa using src),
          played_channel_self]
        exact if_pos fast
      · rw [step _ shuttle (.inr rfl), boundEvent_shuttle_catch (by simpa using shuttle) (by simpa using src)]
        simpa using fast
    rw [event]
    have done := catchUp_stepped (x := x) (v := (s.channel c).rampedFrom (s.channel c).speed) (h := hi * 1200)
      (bodies := holeReports c x hop) size st
    rwa [hx, serial_at] at done
  · subst up
    obtain ⟨rfl, -⟩ := moves_up hle keptHi moves
    have event : s.subStep c n first = s.moved c ((s.channel c).rampedFrom (s.channel c).speed) (hi * 1200)
        (holeReports c x hop) := by
      rw [step _ playing (.inl rfl), boundEvent_train_up (by simpa using playing) (by simpa using src),
        played_channel_self]
      exact if_neg (Int.not_le.mpr slow)
    rw [event, List.append_nil]
    exact moved_stepped size
  · subst down
    obtain ⟨rfl, -⟩ := moves_down hle keptLo moves
    rw [step _ playing (.inl rfl), boundEvent_train_down (by simpa using playing) (by simpa using src)]
    have done := cuedAtLo_stepped (v := (s.channel c).rampedFrom (s.channel c).speed) (h := lo * 1200)
      (bodies := holeReports c x hop) size playing
    rwa [hx, serial_at] at done

end Sys2Proof.Machine
end

section
/-! More bounds reached in a sub-step: edge holds, BOUNCE, NEXT and the queue, and the end of a ramp-down (R83, R87 to
R90, R109, R171). -/

namespace Sys2Proof.Machine

section bounds

variable {s : State} {c : ChannelId} {n : Nat} {v : Int} {h : Nat} {bodies : List ReportBody}

/-- A bounce reversal (R88). -/
theorem reverseLeg_stepped {d : Direction} {passes : Option Nat} (size : s.runLog.entries.length ≤ 256) :
    let w := match d with
      | .forward => -(s.bounceSpeeds (s.channel c).source).2
      | .reverse => (s.bounceSpeeds (s.channel c).source).1
    let leg : Direction := match d with
      | .forward => .reverse
      | .reverse => .forward
    s.subStepped ((s.moved c v h bodies).reverseLeg c d passes) c
      { s.channel c with
        head := h, speed := w, target := w, bounce := some { direction := leg, passes := passes.map (· - 1) } }
      (s.queue c) [] (fun a => a) bodies := by
  unfold State.reverseLeg
  simp only [played_channel_self]
  exact setChannel_stepped size

theorem bounceSpeeds_clip (s : State) (id i : Nat) : s.bounceSpeeds (.clip id i) =
    ((((s.clipOf id).bind (·.bounce)).map (·.forwardSpeed)).getD 1200,
      (((s.clipOf id).bind (·.bounce)).map (·.reverseSpeed)).getD 1200) := by
  unfold State.bounceSpeeds
  dsimp only
  cases (s.clipOf id).bind (·.bounce) <;> rfl

/-- What NEXT at the high bound starts its queue load from: the session COMPLETE, and in queue play the entry just
finished removed (R90, R171). -/
theorem queueAdvance_eq (s : State) (c : ChannelId) (n : Nat) (room : s.roomLeft c) :
    (s.endSession c .complete (some n)).queueAdvance c = (State.cutToNext (s.played c (s.channel c)
      { s.queue c with
        entries := if (s.queue c).playing = true then (s.queue c).entries.drop 1 else (s.queue c).entries
        session := none } id
      ((s.completedBy c n).map .entry) s.freeReads) c .queue .endAction).state := by
  unfold State.queueAdvance State.dropHead
  simp only [endSession_completed s c n room, played_queue_self, setQueue_eq_played, played_played,
    played_channel_self, List.append_nil, played_freeReads, Function.id_comp]
  split
  · rfl
  · rfl

section next

variable {lost : List QueueEntry} {e : QueueEntry} {more : List QueueEntry} {m : Nat} {g : Angle}

/-- NEXT with an entry that can be loaded: a cut to it (R90, R171). -/
theorem queueAdvance_loads (size : s.runLog.entries.length ≤ 256) (room : s.roomLeft c)
    (st : (s.channel c).state = .playing)
    (hq : (if (s.queue c).playing = true then (s.queue c).entries.drop 1 else (s.queue c).entries) = lost ++ e :: more)
    (hl : ∀ e ∈ lost, ∀ m g, ¬s.loads e m g) (load : s.loads e m g) :
    let log := s.completedBy c n ++ s.skippedOn c lost
    s.subStepped (((s.moved c v h bodies).endSession c .complete (some n)).queueAdvance c) c
      { s.channel c with
        source := .clip e.clip m, head := g.inSerial * 1200, speed := s.speedOf e, target := s.speedOf e
        edgeHold := false, bounce := some (s.contextOf e.clip (s.speedOf e)) }
      ⟨e :: more, true, some (freshSession e.clip g.train)⟩ log (fun a => a)
      (bodies ++ (appendReports s.runLog.entries.length log ++
        (if (s.channel c).source = .clip e.clip m then [] else
          [.stateChanged c .playing .playing ⟨.clip e.clip m, some g.train⟩ g.inSerial .queue]))) := by
  dsimp only
  have room' : (s.moved c v h bodies).roomLeft c := fun r hr => room r (by simpa using hr)
  have log : (s.moved c v h bodies).completedBy c n = s.completedBy c n := by simp [State.completedBy]
  have train : s.sourceTrain (.clip e.clip m) = some g.train := by
    simp [State.sourceTrain, loads_angleOf load]
  have normal := (queueAdvance_eq (s.moved c v h bodies) c n room').trans (congrArg LoadOutcome.state
    (cutToNext_loads (by simpa using hq) hl load))
  rw [log] at normal
  refine subStepped_after size normal ?_ ?_ ?_ ((bodiesOf_entries_reports ..).trans (congrArg _ ?_))
  · rw [loadedChannel_eq]
    simp [Channel.jogLeft, st, State.speedOf, State.contextOf]
    rfl
  · rw [played_channel_self, leaveArm_of_ne (by simp [st])]
    rfl
  · rw [entriesOf_append, entriesOf_entries, entriesOf_reports, List.append_nil]
    rfl
  · rw [loadedChannel_eq]
    unfold State.changeReport
    simp only [played_channel_self, st, true_and, played_sourceTrain, train, serial_at]

/-- NEXT with nothing left to load: a stop (R90, R171). -/
theorem queueAdvance_empty (size : s.runLog.entries.length ≤ 256) (room : s.roomLeft c)
    (st : (s.channel c).state = .playing)
    (hq : (if (s.queue c).playing = true then (s.queue c).entries.drop 1 else (s.queue c).entries) = lost)
    (hl : ∀ e ∈ lost, ∀ m g, ¬s.loads e m g) :
    let log := s.completedBy c n ++ s.skippedOn c lost
    s.subStepped (((s.moved c v h bodies).endSession c .complete (some n)).queueAdvance c) c
      { s.channel c with state := .cued, head := h, speed := 0, target := 0, bounce := none } ⟨[], false, none⟩ log
      (fun a => a)
      (bodies ++ (appendReports s.runLog.entries.length log ++
        [.stateChanged c (s.channel c).state .cued ⟨(s.channel c).source, s.sourceTrain (s.channel c).source⟩
          (h / 1200) .endAction])) := by
  dsimp only
  have room' : (s.moved c v h bodies).roomLeft c := fun r hr => room r (by simpa using hr)
  have log : (s.moved c v h bodies).completedBy c n = s.completedBy c n := by simp [State.completedBy]
  have normal := (queueAdvance_eq (s.moved c v h bodies) c n room').trans (congrArg LoadOutcome.state
    (cutToNext_empty (by simpa using hq) hl))
  rw [log, stoppedChannel_eq, moved_halted_report .endAction st] at normal
  refine subStepped_after size normal ?_ ?_ ?_ (bodiesOf_entries_reports ..)
  · exact moved_halted st
  · rw [played_channel_self, leaveArm_of_ne (by simp [st])]
    rfl
  · rw [entriesOf_append, entriesOf_entries, entriesOf_reports, List.append_nil]
    rfl

end next

end bounds

/-- Settles O51: the move, the bound it reaches, and the event; or the ramp-down's end. -/
theorem holdsBouncesAdvances : Obligations.HoldsBouncesAdvances := by
  intro c n first s x lo hi hx hb hle keptLo keptHi room size
  refine ⟨fun h hop d stay moves => ⟨fun shuttle => ?_, fun id i playing src => ?_⟩,
    fun p shuttle law bound lost still => ?_⟩
  · have nojog : first = true → (s.channel c).state ≠ .jog := fun _ jog => by simp [jog] at shuttle
    have step := subStep_moves (n := n) nojog (fun _ still => by
      cases d with
      | forward => exact absurd (moves_up hle keptHi moves).2 (by omega)
      | reverse => exact absurd (moves_down hle keptLo moves).2 (by omega)) hx hb hle stay moves
    refine ⟨fun up slow => ?_, fun down => ?_⟩
    · subst up
      obtain ⟨rfl, -⟩ := moves_up hle keptHi moves
      rw [step, boundEvent_shuttle_hold _ (by simpa using shuttle)]
      · have done := holdEdge_stepped (c := c) (v := (s.channel c).rampedFrom (s.channel c).speed) (h := hi * 1200)
          (bodies := holeReports c x hop) (d := .forward) size
        rwa [serial_at] at done
      · intro _ y hy
        rw [played_channel_self] at hy ⊢
        rcases slow with ⟨id, i, clip⟩ | slow
        · exact nomatch hy.symm.trans clip
        · exact slow
    · subst down
      obtain ⟨rfl, -⟩ := moves_down hle keptLo moves
      rw [step, boundEvent_shuttle_hold _ (by simpa using shuttle) (by simp)]
      have done := holdEdge_stepped (c := c) (v := (s.channel c).rampedFrom (s.channel c).speed) (h := lo * 1200)
        (bodies := holeReports c x hop) (d := .reverse) size
      rwa [serial_at] at done
  · have step := (subStep_moves (n := n) (first := first) (fun _ jog => by simp [jog] at playing)
      (fun shuttle => by simp [playing] at shuttle) hx hb hle stay moves).trans
      (boundEvent_clip d (by simpa using playing) (by simpa using src))
    have action := effectiveEnd_clip (v := (s.channel c).rampedFrom (s.channel c).speed) (h := h)
      (bodies := holeReports c x hop) src
    unfold State.clipBound at step
    refine ⟨fun context off bounce held => ?_, fun lost rest up next hq hl => ?_⟩
    · simp only [action, off, bounce, Bool.false_eq_true, if_false, State.bounceAt, played_channel_self, held] at step
      have turn := fun h (d : Direction) => reverseLeg_stepped (c := c)
        (v := (s.channel c).rampedFrom (s.channel c).speed) (h := h) (bodies := holeReports c x hop) (d := d)
        (passes := context.passes) size
      have stop := fun h => stopAtBound_stepped (n := n) (v := (s.channel c).rampedFrom (s.channel c).speed) (h := h)
        (bodies := holeReports c x hop) size room playing
      rw [src] at turn
      simp only [bounceSpeeds_clip] at turn
      simp only [hx] at stop
      refine ⟨fun up more => ?_, fun down more => ?_, fun up none => ?_, fun down none => ?_⟩
      · subst up
        obtain ⟨rfl, -⟩ := moves_up hle keptHi moves
        rw [step, if_neg more]
        exact turn (hi * 1200) .forward
      · subst down
        obtain ⟨rfl, -⟩ := moves_down hle keptLo moves
        rw [step, if_neg more]
        exact turn (lo * 1200) .reverse
      · subst up
        obtain ⟨rfl, -⟩ := moves_up hle keptHi moves
        rw [step, if_pos none, List.append_assoc]
        have done := stop (hi * 1200)
        rwa [serial_at] at done
      · subst down
        obtain ⟨rfl, -⟩ := moves_down hle keptLo moves
        rw [step, if_pos none, List.append_assoc]
        have done := stop (lo * 1200)
        rwa [serial_at] at done
    · subst up
      obtain ⟨rfl, -⟩ := moves_up hle keptHi moves
      have event : s.subStep c n first = ((s.moved c ((s.channel c).rampedFrom (s.channel c).speed) (hi * 1200)
          (holeReports c x hop)).endSession c .complete (some n)).queueAdvance c := by
        rw [step, action]
        rcases next with on | next
        · rw [on]; rfl
        · rw [next]; cases (s.queue c).playing <;> rfl
      rw [event]
      refine ⟨fun none => ?_, fun e more m g some load => ?_⟩
      · rw [none, List.append_nil] at hq
        have done := queueAdvance_empty (n := n) (v := (s.channel c).rampedFrom (s.channel c).speed) (h := hi * 1200)
          (bodies := holeReports c x hop) size room playing hq hl
        rw [hx, serial_at] at done
        rw [List.append_assoc]
        exact done
      · rw [some] at hq ⊢
        have done := queueAdvance_loads (n := n) (v := (s.channel c).rampedFrom (s.channel c).speed) (h := hi * 1200)
          (bodies := holeReports c x hop) size room playing hq hl load
        dsimp only at done
        rw [List.append_assoc]
        exact done
  · have start := deadManRest_of_lost (first := first) law shuttle bound lost still
    have nojog : first = true → (s.channel c).state ≠ .jog := fun _ jog => by simp [jog] at shuttle
    have report : s.changeReport c (s.channel c).rested .deadMan =
        [.stateChanged c (s.channel c).state .cued ⟨(s.channel c).source, some x⟩ ((s.channel c).head / 1200) .deadMan] := by
      simp [State.changeReport, shuttle, hx, Channel.rested]
    rw [report] at start
    have unlost : ∀ t new q notes bodies, s.subStepped t c new q notes ArmState.unlost bodies →
        s.subStepped t c new q notes (fun _ => .disarmed) bodies := by
      rintro t new q notes bodies ⟨h1, h2, h3, h4, h5, h6, h7, h8, h9, h10, h11, h12⟩
      refine ⟨h1, h2, h3, h4, h5, h6, h7, h8, h9, h10, h11, fun law q hq => ?_⟩
      obtain rfl := law.2.2.2 p q c bound hq
      rw [h12 law p hq, lost]
      rfl
    refine ⟨fun off => unlost _ _ _ _ _ ?_, fun h hop stay moves => unlost _ _ _ _ _ ?_⟩
    · rw [subStep_off start nojog rfl rfl hx hb off, boundEvent_none (by simp [Channel.rested])]
      exact subStepped_of_played size (entriesOf_reports _) (bodiesOf_reports ..)
    · have moved := subStep_moved (n := n) start rfl hx hb (.inr ⟨rfl, stay⟩) (r := ⟨h, none, hop⟩) (by
        have moves := resolve_moves hle moves
        simp only [still] at moves
        simpa [jogging_eq_false nojog, travelOf, Channel.rested] using moves)
      rw [moved, boundEvent_none (by simp [Channel.rested])]
      exact subStepped_of_played size (by rw [entriesOf_append, entriesOf_reports, entriesOf_reports, List.append_nil])
        ((bodiesOf_reports_append ..).trans (by rw [bodiesOf_reports]; rfl))

end Sys2Proof.Machine
end

section
/-! What the laws ask of the playback head: every piece of a sub-step is a channel operation the laws permit, and changes
the state or the source only out of PLAYING and SHUTTLE. -/

namespace Sys2Proof.Machine

/-! ## Ticks -/

/-- Out of a state st a sub-step's piece leaves the channel's state and source as they are; but for PLAYING, where the
source may change, and for PLAYING and SHUTTLE, which may be left for CUED and LIVE. -/
def State.Turns (s t : State) (c : ChannelId) : Prop :=
  ((t.channel c).state = (s.channel c).state ∧
    ((t.channel c).source = (s.channel c).source ∨ (s.channel c).state = .playing)) ∨
  (((s.channel c).state = .playing ∨ (s.channel c).state = .shuttle) ∧
    ((t.channel c).state = .cued ∨ (t.channel c).state = .live))

/-- One piece of a sub-step of channel c: an operation the laws permit. -/
def State.Ticks (c : ChannelId) (s t : State) : Prop := s.PlaysOn t c ∧ s.Turns t c

/-- Pieces of sub-steps, one after the other. -/
abbrev State.Runs (c : ChannelId) : State → State → Prop := Relation.ReflTransGen (State.Ticks c)

theorem turns_of_kept {s t : State} {c : ChannelId} (state : (t.channel c).state = (s.channel c).state)
    (source : (t.channel c).source = (s.channel c).source) : s.Turns t c := .inl ⟨state, .inl source⟩

theorem runs_of_kept {s : State} {c : ChannelId} {new : Channel} {f : ArmState → ArmState} {notes : List Note}
    {free : Nat} (permits : s.Permits c new (s.queue c) notes) (state : new.state = (s.channel c).state)
    (source : new.source = (s.channel c).source) : State.Runs c s (s.played c new (s.queue c) f notes free) :=
  .single ⟨⟨_, _, _, _, _, rfl, permits⟩,
    turns_of_kept (by rw [played_channel_self, state]) (by rw [played_channel_self, source])⟩

theorem runs_setChannel {s : State} {c : ChannelId} {new : Channel} (permits : s.Permits c new (s.queue c) [])
    (state : new.state = (s.channel c).state) (source : new.source = (s.channel c).source) :
    State.Runs c s (s.setChannel c new) := by
  rw [setChannel_eq_played]
  exact runs_of_kept permits state source

theorem runs_head (s : State) (c : ChannelId) (h : Nat) :
    State.Runs c s (s.setChannel c { s.channel c with head := h }) :=
  runs_setChannel (permits_of_kept rfl rfl rfl rfl rfl rfl) rfl rfl

theorem played_changeReport (s : State) (c : ChannelId) (q : PlayQueue) (f : ArmState → ArmState) (notes : List Note)
    (free : Nat) (new : Channel) (cause : Cause) :
    (s.played c (s.channel c) q f notes free).changeReport c new cause = s.changeReport c new cause := by
  simp [State.changeReport]

theorem runs_noted (s : State) (c : ChannelId) (l : List Note) : State.Runs c s (s.noted l) := by
  rw [noted_eq_played s c]
  exact runs_of_kept (permits_of_kept rfl rfl rfl rfl rfl rfl) rfl rfl

/-- A stop in CUED out of PLAYING or SHUTTLE, the queue's entries and flag as they were, is a tick. -/
theorem ticks_halt {s : State} {c : ChannelId} {new : Channel} {q : PlayQueue} {f : ArmState → ArmState}
    {log : List Note} {free : Nat} (cause : Cause)
    (st : (s.channel c).state = .playing ∨ (s.channel c).state = .shuttle) (cued : new.state = .cued)
    (speed : new.speed = 0) (target : new.target = 0) (source : new.source = (s.channel c).source)
    (role : new.role = (s.channel c).role) (accel : new.accel = (s.channel c).accel)
    (entries : q.entries = (s.queue c).entries) (playing : q.playing = (s.queue c).playing) :
    State.Ticks c s (s.played c new q f (log ++ (s.changeReport c new cause).map .report) free) := by
  have before : (s.channel c).state ≠ .following := by rcases st with st | st <;> simp [st]
  refine ⟨⟨_, _, _, _, _, rfl, permits_of_change (fun _ => before) (by simp [cued]) role accel (fun _ => ?_)
    (fun _ => by simp [speed, target, inSpeedRange]) entries (.inr ⟨playing, source⟩)
    (told_of_changeReport cause fun b hb => List.mem_append_right _ (List.mem_map_of_mem hb))⟩, .inr ⟨st, .inl ?_⟩⟩
  · simp [Channel.speedsFit, cued, speed, target]
  · rw [played_channel_self, cued]

/-! ## Bound events -/

section events

variable {s : State} {c : ChannelId} {n : Nat}

theorem ticks_cuedAtLo (st : (s.channel c).state = .playing) : State.Ticks c s (s.cuedAtLo c) := by
  rw [cuedAtLo_eq_played]
  exact ticks_halt (log := []) .bound (.inl st) rfl rfl rfl rfl rfl rfl rfl rfl

theorem ticks_stopAtBound (st : (s.channel c).state = .playing) : State.Ticks c s (s.stopAtBound c n) := by
  obtain ⟨r, free, h⟩ := countPresent_played s c n
  have ended : s.endSession c .complete (some n) = (s.countPresent c n).endSession c .complete none := rfl
  unfold State.stopAtBound
  rw [ended, h, endSession_played, commit_eq_played]
  simp only [played_channel_self, played_queue_self, played_played, played_freeReads, played_changeReport]
  exact ticks_halt .endAction (.inl st) rfl rfl rfl rfl rfl rfl rfl rfl

theorem ticks_catchUp {x : TrainId} (st : (s.channel c).state = .playing ∨ (s.channel c).state = .shuttle) :
    State.Ticks c s (s.catchUp c x) := by
  have before : (s.channel c).state ≠ .following := by rcases st with st | st <;> simp [st]
  rw [catchUp_eq_played]
  refine ⟨⟨_, _, _, _, _, rfl, permits_of_change (fun _ => before) (by simp [Channel.caught]) rfl rfl (fun _ => ⟨rfl, rfl⟩)
    (fun _ => by simp [Channel.caught, inSpeedRange]) rfl (.inr ⟨rfl, rfl⟩)
    (told_of_changeReport .catchUp fun b hb => List.mem_cons_of_mem _ (List.mem_map_of_mem hb))⟩, .inr ⟨st, .inr ?_⟩⟩
  rw [played_channel_self]
  rfl

theorem runs_holdEdge {d : Direction} (st : (s.channel c).state = .shuttle) : State.Runs c s (s.holdEdge c d) := by
  rw [holdEdge_eq_played]
  refine runs_of_kept (permits_of_change (fun _ => by simp [st]) (by simp [st]) rfl rfl (fun _ => ?_)
    (fun law => ⟨by simp [inSpeedRange], (law.1 c).2.1⟩) rfl (.inr ⟨rfl, rfl⟩) (by simp)) rfl rfl
  simp [Channel.speedsFit, st]

theorem runs_reverseLeg {d : Direction} {passes : Option Nat} (st : (s.channel c).state = .playing) :
    State.Runs c s (s.reverseLeg c d passes) := by
  unfold State.reverseLeg
  refine runs_setChannel (permits_of_change (fun _ => by simp [st]) (by simp [st]) rfl rfl (fun _ => ?_) (fun law => ?_) rfl
    (.inr ⟨rfl, rfl⟩) (by simp)) rfl rfl
  · simp [Channel.speedsFit, st]
  · obtain ⟨fore, back⟩ := bounceSpeeds_range (s.channel c).source law
    cases d
    · exact ⟨back, back⟩
    · exact ⟨fore, fore⟩

/-- A cut to the next entry leaves the channel in PLAYING or CUED. -/
theorem cutToNext_state (s : State) (c : ChannelId) (load stop : Cause) :
    ((s.cutToNext c load stop).state.channel c).state = .playing ∨
      ((s.cutToNext c load stop).state.channel c).state = .cued := by
  unfold State.cutToNext
  dsimp only
  split
  · exact .inl (by rw [loadEntry_eq_played, played_channel_self]; rfl)
  · exact .inr (by rw [queueStop_eq_played, played_channel_self]; rfl)

theorem ticks_queueAdvance (st : (s.channel c).state = .playing) :
    State.Ticks c s ((s.endSession c .complete (some n)).queueAdvance c) := by
  obtain ⟨r, free, h⟩ := countPresent_played s c n
  have ended : s.endSession c .complete (some n) = (s.countPresent c n).endSession c .complete none := rfl
  have free' : s.gangLaw → (s.channel c).state ≠ .following := fun _ => by simp [st]
  have cut : ∀ u, s.PlaysOn (State.cutToNext u c .queue .endAction).state c →
      State.Ticks c s (State.cutToNext u c .queue .endAction).state := by
    intro u plays
    refine ⟨plays, ?_⟩
    rcases cutToNext_state u c .queue .endAction with on | off
    · exact .inl ⟨by rw [on, st], .inr st⟩
    · exact .inr ⟨.inl st, .inl off⟩
  unfold State.queueAdvance State.dropHead
  rw [ended, h, endSession_played]
  simp only [played_queue_self, setQueue_eq_played, played_channel_self, played_played, played_freeReads,
    Function.id_comp]
  split
  · exact cut _ (playsOn_cutToNext free' (fun d hd => List.mem_of_mem_drop hd) (by simp))
  · exact cut _ (playsOn_cutToNext free' (fun d hd => hd) le_rfl)

theorem runs_clipBound {lo : Nat} {d : Direction} (st : (s.channel c).state = .playing) :
    State.Runs c s (s.clipBound c n lo d) := by
  unfold State.clipBound
  split
  · unfold State.bounceAt
    split
    · split
      · exact .single (ticks_stopAtBound st)
      · exact runs_reverseLeg st
    · exact runs_reverseLeg st
  · exact .single (ticks_stopAtBound st)
  · exact runs_setChannel (permits_of_kept rfl rfl rfl rfl rfl rfl) rfl rfl
  · exact .single (ticks_queueAdvance st)
  · exact .single (ticks_cuedAtLo st)

theorem runs_boundEvent (s : State) (c : ChannelId) (n lo : Nat) (reached : Option Direction) :
    State.Runs c s (s.boundEvent c n lo reached) := by
  unfold State.boundEvent
  dsimp only
  split
  · exact runs_setChannel (permits_of_kept rfl rfl rfl rfl rfl rfl) rfl rfl
  · next st _ => exact runs_clipBound st
  · next st _ =>
    split
    · exact .single (ticks_catchUp (.inl st))
    · exact .refl
  · next st _ => exact .single (ticks_cuedAtLo st)
  · next st _ =>
    split
    · exact .single (ticks_catchUp (.inr st))
    · exact runs_holdEdge st
  · next st _ => exact runs_holdEdge st
  · exact .refl

end events

/-! ## Sub-steps and requests -/

theorem rampedFrom_range {ch : Channel} (speed : inSpeedRange ch.speed) (target : inSpeedRange ch.target)
    (accel : 1 ≤ ch.accel) : inSpeedRange (ch.rampedFrom ch.speed) := by
  unfold Channel.rampedFrom
  simp only [inSpeedRange] at *
  split
  · omega
  · split <;> omega

/-- A speed at its target stays. -/
theorem rampedFrom_self {ch : Channel} (h : ch.speed = ch.target) : ch.rampedFrom ch.speed = ch.speed := by
  simp [Channel.rampedFrom, h]

theorem ramped_speedsFit {s : State} {c : ChannelId} {first : Bool} (h : (s.channel c).speedsFit) :
    (s.ramped c first).speedsFit := by
  have state : (s.ramped c first).state = (s.channel c).state := rfl
  have target : (s.ramped c first).target = (s.channel c).target := rfl
  have speed : (s.channel c).speed = (s.channel c).target → (s.ramped c first).speed = (s.channel c).speed :=
    rampedFrom_self
  unfold Channel.speedsFit at h ⊢
  rw [state, target]
  split at h
  · trivial
  · trivial
  · exact ⟨(speed (h.1.trans h.2.symm)).trans h.1, h.2⟩
  · exact ⟨(speed (h.1.trans h.2.symm)).trans h.1, h.2⟩

theorem runs_ramped (s : State) (c : ChannelId) (first : Bool) : State.Runs c s (s.setChannel c (s.ramped c first)) := by
  refine runs_setChannel ⟨ramped_speedsFit, fun law => ?_, fun law => law.2.2.1 c, fun _ => Iff.rfl,
    fun _ _ => ⟨rfl, rfl⟩, fun _ => Iff.rfl, fun _ => rfl, fun law => law c, by simp [State.ramped]⟩ rfl rfl
  obtain ⟨speed, target, low, high⟩ := law.1 c
  exact ⟨rampedFrom_range speed target low, target, low, high⟩

theorem runs_deadManRest (s : State) (c : ChannelId) : State.Runs c s (s.deadManRest c) := by
  unfold State.deadManRest
  split
  · split
    · next h =>
      obtain ⟨st, -, -⟩ := h
      rw [commit_eq_played]
      exact .single (ticks_halt (log := []) .deadMan (.inr st) rfl rfl rfl rfl rfl rfl rfl rfl)
    · exact .refl
  · exact .refl

theorem runs_stepFrom (s : State) (c : ChannelId) (n : Nat) (jogging : Bool) (h acc : Int) :
    State.Runs c s (s.stepFrom c n jogging h acc) := by
  unfold State.stepFrom
  dsimp only
  split
  · split
    · exact runs_boundEvent ..
    · exact (runs_head ..).trans ((runs_noted ..).trans (runs_boundEvent ..))
  · exact .refl

theorem runs_subStep (s : State) (c : ChannelId) (n : Nat) (first : Bool) : State.Runs c s (s.subStep c n first) := by
  rw [subStep_eq]
  exact (runs_ramped s c first).trans ((runs_deadManRest ..).trans (runs_stepFrom ..))

theorem runs_runSubSteps (c : ChannelId) (n k : Nat) (first : Bool) (s : State) :
    State.Runs c s (runSubSteps c n k first s) := by
  induction k generalizing first s with
  | zero => exact .refl
  | succ k ih =>
    unfold runSubSteps
    split
    · exact (runs_subStep s c n first).trans (ih false _)
    · exact .refl

/-- The law of gangs gives a channel in FOLLOWING the role of a follower. -/
theorem gangLaw_follower {s : State} {c : ChannelId} (law : s.gangLaw) (st : (s.channel c).state = .following) :
    (s.channel c).isFollower = true ∧ (s.channel c).role ≠ .leader := by
  have follower := (law.1 c).1.mp st
  refine ⟨follower, fun role => ?_⟩
  simp [Channel.isFollower, role] at follower

theorem runs_place (s : State) (c : ChannelId) : State.Runs c s (s.place c) := by
  unfold State.place
  split
  · unfold State.placeLive
    dsimp only
    split
    · split
      · exact runs_setChannel (permits_of_kept rfl rfl rfl rfl rfl rfl) rfl rfl
      · exact .refl
    · exact .refl
  · next st =>
    have follows : ∀ w h, s.Permits c { s.channel c with head := h, role := .follower w } (s.queue c) [] := fun w h => {
      fits := id
      range := fun law => law.1 c
      entries := fun law => law.2.2.1 c
      following := fun _ => Iff.rfl
      ganged := fun _ _ => ⟨rfl, rfl⟩
      leader := fun law => iff_of_false (by simp) (gangLaw_follower law st).2
      follower := fun law => ((gangLaw_follower law st).1).symm
      queue := fun law => law c
      told := by simp }
    unfold State.placeFollower
    dsimp only
    split
    · split
      · exact runs_setChannel (follows ..) rfl rfl
      · have held := runs_setChannel (follows .holding (s.channel c).head) rfl rfl
        split
        · exact held.trans (runs_noted _ c [.report _])
        · exact held
    · exact .refl
  · exact .refl

theorem runs_settle (s : State) (c : ChannelId) : State.Runs c s (s.settle c) := by
  unfold State.settle
  dsimp only
  split
  · exact .refl
  · split
    · split
      · exact (runs_head ..).trans (runs_noted _ c [.report _])
      · exact runs_head ..
    · exact .refl

/-- However many pieces run, the channel's state stays or is left for CUED or LIVE. -/
theorem runs_turns {s t : State} {c : ChannelId} (h : State.Runs c s t) :
    s.Turns t c := by
  induction h with
  | refl => exact turns_of_kept rfl rfl
  | tail _ step ih =>
    obtain ⟨-, step⟩ := step
    rcases ih with ⟨same, source⟩ | ⟨moving, rest⟩
    · rcases step with ⟨same', source'⟩ | ⟨moving', rest'⟩
      · refine .inl ⟨same'.trans same, ?_⟩
        rcases source' with source' | playing
        · exact source.imp_left source'.trans
        · exact .inr (same ▸ playing)
      · exact .inr ⟨by rwa [same] at moving', rest'⟩
    · refine .inr ⟨moving, ?_⟩
      rcases step with ⟨same', -⟩ | ⟨-, rest'⟩
      · rwa [same']
      · exact rest'

end Sys2Proof.Machine
end

section
/-! Serving a FRAME_REQUEST (R49 to R51, R58 to R65, R112, R174): the advance count, the sub-steps in turn, placement,
settling and the present. -/

namespace Sys2Proof.Machine

/-! ## The advance count (R50) -/

/-- The count of faults after one more (R185). -/
def FaultRecord.nextCount (r : FaultRecord) : Nat := if r.count < 65535 then r.count + 1 else r.count

/-- The fault record with one fault more (R185). -/
def FaultRecord.recorded (r : FaultRecord) (k : FaultKind) (o : Option Nat) (now : Nat) : FaultRecord :=
  let entry : FaultEntry := { kind := k, object := o, time := now }
  { first := if r.count = 0 then some entry else r.first, latest := some entry, count := r.nextCount }

/-- A fault recorded writes the fault record, raises FAULT/RECORDED and drives the line of a masked kind (R185). -/
theorem recordFault_eq_record (s : State) (k : FaultKind) (o : Option Nat) : s.recordFault k o =
    { s with
      faults := s.faults.recorded k o s.time
      reports := (s.raise (.recorded k o s.time s.faults.nextCount)).reports
      alarm := if s.alarm.selects k then s.alarm.drive s.time else s.alarm } := by
  have raised : ∀ f : FaultRecord, ∀ b, State.raise { s with faults := f } b =
      { s with faults := f, reports := (s.raise b).reports } := by
    intro f b
    unfold State.raise
    dsimp only
    split <;> rfl
  unfold State.recordFault
  dsimp only
  rw [raised]
  by_cases hs : s.alarm.selects k = true
  · rw [if_pos hs, if_pos hs]; rfl
  · rw [if_neg hs, if_neg hs]; rfl

theorem recordFault_setChannel (s : State) (c : ChannelId) (ch : Channel) (k : FaultKind) (o : Option Nat) :
    (s.setChannel c ch).recordFault k o = (s.recordFault k o).setChannel c ch := by
  have reports := raise_reports_congr (s := s) (t := s.setChannel c ch) (.recorded k o s.time s.faults.nextCount) rfl rfl
  simp only [recordFault_eq_record, setChannel_time, setChannel_faults, reports]
  rfl

theorem recordFault_channel (s : State) (k : FaultKind) (o : Option Nat) (d : ChannelId) :
    (s.recordFault k o).channel d = s.channel d := by
  obtain ⟨f, r, a, h⟩ := recordFault_eq s k o
  rw [h]
  rfl

/-- A request's count measured from the last one served, both below 2³². -/
theorem elapsed_add {m d : Nat} (hd : d < 4294967296) :
    elapsed ((m + d) % 4294967296) m = d := by
  simp only [elapsed, Config.wrap32]
  omega

/-- The advance count of a request, and the state it is served from. -/
theorem advances_eq {s s1 : State} {c : ChannelId} {n k : Nat} (h : s.advances c n k s1) :
    (advanceCount (s.channel c).lastServed n).1 = k ∧
      (if (advanceCount (s.channel c).lastServed n).2 then
        (s.setChannel c { s.channel c with lastServed := some n }).recordFault .playoutGap (some c.val)
        else s.setChannel c { s.channel c with lastServed := some n }) =
      s1.setChannel c { s1.channel c with lastServed := some n } := by
  rcases h with ⟨none, rfl, rfl⟩ | ⟨m, d, last, hm, hd, rfl, near | far⟩
  · simp [none, advanceCount]
  · obtain ⟨le, rfl, rfl⟩ := near
    rw [last]
    unfold advanceCount
    by_cases zero : k = 0
    · subst zero
      simp [Nat.mod_eq_of_lt hm]
    · have moved : (m + k) % 4294967296 ≠ m := by omega
      simp [moved, elapsed_add hd, Nat.not_lt.mpr le]
  · obtain ⟨gt, rfl, rfl⟩ := far
    rw [last]
    unfold advanceCount
    have moved : (m + d) % 4294967296 ≠ m := by omega
    simp [moved, elapsed_add hd, gt, recordFault_setChannel, recordFault_channel]

/-- What a request is served from differs from the state it comes in at most in the fault it records. -/
theorem advances_base {s s1 : State} {c : ChannelId} {n k : Nat} (h : s.advances c n k s1) :
    ∃ f r a, s1 = { s with faults := f, reports := r, alarm := a } := by
  rcases h with ⟨-, -, rfl⟩ | ⟨m, d, -, -, -, -, ⟨-, -, rfl⟩ | ⟨-, -, rfl⟩⟩
  · exact ⟨_, _, _, rfl⟩
  · exact ⟨_, _, _, rfl⟩
  · exact recordFault_eq ..

/-! ## The present kept (R65, R112, R174) -/

section present

variable (s : State) (c : ChannelId) (n k : Nat) (tag : Byte)

theorem readyEcho_eq (p : Present) : s.readyEcho c p = { s with panels := (s.readyEcho c p).panels } := by
  unfold State.readyEcho
  split <;> rfl

theorem readyEcho_panel_unbound (p : Present) {q : PanelId} (h : (s.panel q).binding ≠ some c) :
    (s.readyEcho c p).panel q = s.panel q := by
  unfold State.readyEcho
  split
  · next b hb =>
    have ne : q ≠ b := fun e => h (e ▸ boundPanel_binding hb)
    exact setPanel_panel_ne _ _ _ ne
  · rfl

/-- The echo of a present, for a channel on a source and a panel's arm state (R112). -/
def echoOf (c : ChannelId) (src : Source) (arm : ArmState) (p : Present) : Echo :=
  { channel := c, state := p.state, speed := p.speed, timecode := p.frame.bind (·.timecode)
    clip := match src with
      | .clip id _ => some id
      | _ => none
    arm := arm }

theorem readyEcho_panel_bound (p : Present) (law : s.tableLaw) {q : PanelId} (h : (s.panel q).binding = some c) :
    (s.readyEcho c p).panel q =
      { s.panel q with pendingEcho := some (echoOf c (s.channel c).source (s.panel q).arm p) } := by
  unfold State.readyEcho
  split
  · next b hb =>
    obtain rfl := law.2.2.2 q b c h (boundPanel_binding hb)
    exact setPanel_panel_self ..
  · next hb => exact absurd h (boundPanel_none hb q)

/-- Channel c with the present kept as its last and counted to its open session (R65, R174). -/
def State.shown (s : State) (c : ChannelId) (n k : Nat) : State :=
  s.played c { s.channel c with lastPresent := some (s.formPresent c n) }
    (if 1 ≤ k then s.countedQueue c n else s.queue c) id [] s.freeReads

/-- What keeping a present leaves, but for the panels (R65, R174). -/
def State.kept (s : State) (c : ChannelId) (n k : Nat) (tag : Byte) : State :=
  { s.shown c n k with playout := s.playout.form tag (s.formPresent c n) }

theorem keepPresent_eq (room : 1 ≤ k → s.roomLeft c) :
    s.keepPresent c n k tag = (s.kept c n k tag).readyEcho c (s.formPresent c n) := by
  have counted : ∀ u : State, u.queue c = s.queue c → u.freeReads = s.freeReads →
      (if 1 ≤ k then u.countPresent c n else u) =
        u.played c (u.channel c) (if 1 ≤ k then s.countedQueue c n else s.queue c) id [] s.freeReads := by
    intro u hq hf
    split
    · next some =>
      rw [countPresent_eq_played u c n (fun r hr => room some r (hq ▸ hr)), State.countedQueue, State.countedQueue, hq, hf]
    · rw [← hq, ← hf]
      exact (played_self u c).symm
  unfold State.keepPresent State.kept State.shown
  refine congrArg (State.readyEcho · c _) ((counted _ ?_ ?_).trans ?_)
  · rfl
  · rfl
  · simp [State.setChannel, State.played, State.channel]

/-- The present is answered, kept and echoed, and all else stays (R65, R112). -/
theorem keepPresent_serves (room : 1 ≤ k → s.roomLeft c) :
    let t := s.keepPresent c n k tag
    let p := s.formPresent c n
    s.serves t c tag p id ∧ t.channel c = { s.channel c with lastPresent := some p } ∧
      t.queue c = (if 1 ≤ k then s.countedQueue c n else s.queue c) ∧ t.runLog = s.runLog ∧ s.keepsFaults t ∧
      t.reports = s.reports := by
  dsimp only
  have eq := keepPresent_eq s c n k tag room
  have frame := readyEcho_eq (s.kept c n k tag) c (s.formPresent c n)
  have others : s.keepsOthers (s.shown c n k) c := played_keepsOthers
  have record : (s.shown c n k).channel c = { s.channel c with lastPresent := some (s.formPresent c n) } :=
    played_channel_self ..
  have panel : ∀ q, (s.kept c n k tag).panel q = s.panel q := fun q => by
    show (s.rearm c id).panel q = s.panel q
    rw [rearm_id]
  have queue : (s.shown c n k).queue c = if 1 ≤ k then s.countedQueue c n else s.queue c := played_queue_self ..
  have record' : (s.keepPresent c n k tag).channel c = { s.channel c with lastPresent := some (s.formPresent c n) } := by
    rw [eq, frame]
    exact record
  refine ⟨⟨?_, ?_, ?_, ?_, ?_, ?_, ?_, ?_, ?_, ?_, ?_, ?_, fun q hq => ?_, fun law q hq => ?_⟩, record', ?_, ?_, ?_, ?_⟩
  · rw [eq, frame]; rfl
  · rw [record']
  · rw [eq, frame]; exact others
  · rw [eq, frame]; exact ⟨rfl, rfl, rfl, rfl⟩
  · rw [eq, frame]; exact ⟨rfl, rfl⟩
  · rw [eq, frame]; rfl
  · rw [eq, frame]; rfl
  · rw [eq, frame]; rfl
  · rw [eq, frame]; rfl
  · rw [eq, frame]; rfl
  · rw [eq, frame]; rfl
  · rw [eq, frame]; rfl
  · rw [eq, readyEcho_panel_unbound _ _ _ (by rwa [panel]), panel]
  · have law' : (s.kept c n k tag).tableLaw := by
      obtain ⟨locks, ids, bounds, single⟩ := law
      exact ⟨locks, ids, bounds, fun p q d hp hq => single p q d (by rwa [panel] at hp) (by rwa [panel] at hq)⟩
    rw [record', eq, readyEcho_panel_bound _ _ _ law' (by rwa [panel]), panel,
      show (s.kept c n k tag).channel c = _ from record]
    rfl
  · rw [eq, frame]; exact queue
  · rw [eq, frame]; rfl
  · rw [eq, frame]; exact ⟨rfl, rfl⟩
  · rw [eq, frame]; rfl

end present

/-! ## Placing and settling -/

section settle

variable {s : State} {c : ChannelId} {x : TrainId} {lo hi h : Nat} {hop : Option (Nat × Nat)}

/-- A settled head, with the hole it skips reported (R60). -/
theorem settle_eq_played (active : (s.channel c).state ≠ .idle) (hx : s.sourceTrain (s.channel c).source = some x)
    (hb : s.bounds (s.channel c).source = some (lo, hi))
    (settles : settledHead (s.train x) lo hi (s.channel c).head (s.channel c).speed = (h, hop)) :
    s.settle c = s.played c { s.channel c with head := h } (s.queue c) id ((holeReports c x hop).map .report)
      s.freeReads := by
  unfold State.settle
  simp only [if_neg active, hx, hb, settles]
  cases hop with
  | none => exact setChannel_eq_played ..
  | some ab => simp [raise_eq_played _ c, setChannel_eq_played, holeReports]

theorem place_other (live : (s.channel c).state ≠ .live) (follow : (s.channel c).state ≠ .following) :
    s.place c = s := by
  unfold State.place
  split
  · next h => exact absurd h live
  · next h => exact absurd h follow
  · rfl

theorem bounds_train {a b : Nat} (h : s.bounds (.train x) = some (a, b)) :
    (s.train x).oldestEdge = some a ∧ (s.train x).recordEdge = some b := by
  unfold State.bounds at h
  dsimp only at h
  split at h
  · next ho hr =>
    obtain ⟨rfl, rfl⟩ := Prod.mk.injEq .. ▸ Option.some.inj h
    exact ⟨ho, hr⟩
  · cases h

/-- LIVE is placed the live delay behind the record edge, or at the oldest edge (R58). -/
theorem place_live (live : (s.channel c).state = .live) (src : (s.channel c).source = .train x)
    (hb : s.bounds (.train x) = some (lo, hi)) : s.place c = s.setChannel c { s.channel c with
      head := (if hi < lo + (s.channel c).liveDelay then lo else hi - (s.channel c).liveDelay) * 1200 } := by
  obtain ⟨oldest, edge⟩ := bounds_train hb
  have train : s.sourceTrain (.train x) = some x := rfl
  unfold State.place
  rw [live]
  dsimp only
  unfold State.placeLive
  simp only [src, train, liveHead_eq oldest edge]

end settle

/-! ## Sub-steps in turn (R51) -/

theorem stepsIn_iff {st : TransportState} : stepsIn st = true ↔ st ∈ [.cued, .playing, .shuttle, .jog] := by
  cases st <;> simp [stepsIn]

/-- The sub-steps run one after the other, each on what the one before has left. -/
theorem runSubSteps_eq (c : ChannelId) (n k : Nat) (u : Nat → State) (j : Nat)
    (h : ∀ i, i < k → u (j + i + 1) = if ((u (j + i)).channel c).state ∈ [.cued, .playing, .shuttle, .jog] then
      (u (j + i)).subStep c n (decide (j + i = 0)) else u (j + i)) :
    runSubSteps c n k (decide (j = 0)) (u j) = u (j + k) := by
  induction k generalizing j with
  | zero => rfl
  | succ k ih =>
    have next := h 0 (by omega)
    have later := ih (j + 1) fun i hi => by
      have := h (i + 1) (by omega)
      rw [show j + (i + 1) + 1 = j + 1 + i + 1 by omega, show j + (i + 1) = j + 1 + i by omega] at this
      exact this
    rw [show j + 1 + k = j + (k + 1) by omega] at later
    rw [← later, runSubSteps]
    simp only [Nat.add_zero] at next
    by_cases steps : ((u j).channel c).state ∈ [.cued, .playing, .shuttle, .jog]
    · rw [if_pos (stepsIn_iff.mpr steps), next, if_pos steps]
      rfl
    · rw [if_neg (mt stepsIn_iff.mp steps), next, if_neg steps]
      cases k with
      | zero => rfl
      | succ k => rw [runSubSteps, if_neg (mt stepsIn_iff.mp steps)]

/-! ## A request served -/

section serve

variable {s e : State} {c : ChannelId} {n k : Nat} {tag : Byte}

theorem frameRequest_leaves {b : Byte} {w : Word} (hc : b.toNat = c.val) (on : s.resetAsserted = false) :
    Leaves (.frameRequest tag b w) s (s.serve c w.toNat tag) := by
  show powered s (State.frameRequest tag b w) = _
  unfold powered State.frameRequest
  rw [on, channelOf_eq_some hc]
  rfl

/-- The request is served on the state its sub-steps leave. -/
theorem serve_eq {s1 : State} (adv : s.advances c n k s1)
    (run : runSubSteps c n k true (s1.setChannel c { s1.channel c with lastServed := some n }) = e) :
    s.serve c n tag = ((if 1 ≤ k then e.place c else e).settle c).keepPresent c n k tag := by
  obtain ⟨count, base⟩ := advances_eq adv
  unfold State.serve
  simp only [count, base, run]

/-- What a state that differs in its channel and its reports alone serves, its base serves. -/
theorem serves_of_played {t : State} {new : Channel} {q : PlayQueue} {notes : List Note} {p : Present}
    (h : (e.played c new q id notes e.freeReads).serves t c tag p id) : e.serves t c tag p id := by
  have panel : ∀ q', (e.played c new q id notes e.freeReads).panel q' = e.panel q' := fun q' => by
    rw [played_panel, rearm_id]
  obtain ⟨playout, last, others, store, clips, port, ingest, receivers, time, reset, pending, free, unbound, bound⟩ := h
  refine ⟨playout, last, fun d hd => ?_, store, clips, port, ingest, receivers, time, reset, pending, free,
    fun q' hq => ?_, fun law q' hq => ?_⟩
  · obtain ⟨channel, queue⟩ := others d hd
    exact ⟨channel.trans (played_channel_ne _ _ _ _ _ _ _ hd), queue.trans (played_queue_ne _ _ _ _ _ _ _ hd)⟩
  · rw [unbound q' (by rwa [panel]), panel]
  · have law' : (e.played c new q id notes e.freeReads).tableLaw := by
      obtain ⟨locks, ids, below, single⟩ := law
      exact ⟨locks, ids, below, fun a b d ha hb => single a b d (by rwa [panel] at ha) (by rwa [panel] at hb)⟩
    have := bound law' q' (by rwa [panel])
    rwa [panel] at this

theorem formPresent_of_shown {f : FrameShown} (active : (s.channel c).state ≠ .idle) (hf : s.frameShown c = some f) :
    s.formPresent c n = ⟨c, n, some f, (s.channel c).state, s.shownSpeed c⟩ := by
  unfold State.formPresent
  simp only [if_neg active, hf]

/-- A request on a channel that is not IDLE, from the state e its sub-steps and placement have left but for channel c's
record and reports: settled, shown, answered, kept and echoed. -/
theorem served {u : State} {x : TrainId} {lo hi h : Nat} {hop : Option (Nat × Nat)} {mid : Channel}
    {bodies : List ReportBody} (hu : u = e.played c mid (e.queue c) id (bodies.map .report) e.freeReads)
    (active : mid.state ≠ .idle) (hx : e.sourceTrain mid.source = some x) (hb : e.bounds mid.source = some (lo, hi))
    (settles : settledHead (e.train x) lo hi mid.head mid.speed = (h, hop))
    (kept : (e.train x).retained (h / 1200) = true) (blend : mid.blend = (e.channel c).blend)
    (room : 1 ≤ k → e.roomLeft c) {v : Int}
    (pace : ∀ notes, (e.played c { mid with head := h } (e.queue c) id notes e.freeReads).shownSpeed c = v) :
    let t := (u.settle c).keepPresent c n k tag
    ∃ f, e.shows c x hi h f ∧
      let p : Present := ⟨c, n, some f, mid.state, v⟩
      e.serves t c tag p id ∧ t.channel c = { mid with head := h, lastPresent := some p } ∧
      t.queue c = (if 1 ≤ k then e.countedQueue c n else e.queue c) ∧ t.runLog = e.runLog ∧ e.keepsFaults t ∧
      e.raised t (bodies ++ holeReports c x hop) := by
  dsimp only
  have settled : u.settle c = e.played c { mid with head := h } (e.queue c) id
      ((bodies ++ holeReports c x hop).map .report) e.freeReads := by
    rw [hu, settle_eq_played (by simpa using active) (by simpa using hx) (by simpa using hb) (by simpa using settles)]
    simp
  rw [settled]
  obtain ⟨f, hf, shows⟩ := frameShown_shows (s := e.played c { mid with head := h } (e.queue c) id
    ((bodies ++ holeReports c x hop).map .report) e.freeReads) (c := c) (x := x) (lo := lo) (hi := hi)
    (by simpa using hx) (by simpa using hb) (by simpa using kept)
  have present := formPresent_of_shown (n := n) (by simpa using active) hf
  obtain ⟨serves, channel, queue, log, faults, reports⟩ := keepPresent_serves (e.played c { mid with head := h }
    (e.queue c) id ((bodies ++ holeReports c x hop).map .report) e.freeReads) c n k tag
    (fun some r hr => room some r (by simpa using hr))
  rw [present, pace, played_channel_self] at serves channel
  refine ⟨f, ?_, serves_of_played serves, channel, ?_, log.trans (played_runLog_of_reports _), faults, ?_⟩
  · unfold State.shows at shows ⊢
    rw [played_channel_self] at shows
    rw [← blend]
    exact shows
  · rw [queue]
    simp only [State.countedQueue, played_queue_self]
  · unfold State.raised
    rw [reports]
    exact played_raised_reports _

end serve

/-! ## The obligations -/

/-- The C a present carries outside FOLLOWING (R63). -/
theorem shownSpeed_eq {s : State} {c : ChannelId} (h : (s.channel c).state ≠ .following) :
    s.shownSpeed c = if (s.channel c).state = .live then 1200 else (s.channel c).speed := by
  unfold State.shownSpeed
  cases st : (s.channel c).state <;> simp_all

/-- The states sub-steps run in are left for none but CUED and LIVE. -/
theorem runs_state {s t : State} {c : ChannelId} (h : State.Runs c s t)
    (start : (s.channel c).state ∈ [.cued, .playing, .shuttle, .jog]) :
    (t.channel c).state ∈ [.cued, .playing, .shuttle, .jog] ∨ (t.channel c).state = .live := by
  rcases runs_turns h with ⟨same, -⟩ | ⟨-, cued | live⟩
  · exact .inl (same ▸ start)
  · exact .inl (by simp [cued])
  · exact .inr live

theorem paced_speed {s : State} {c : ChannelId} {mid : Channel} {q : PlayQueue} {f : ArmState → ArmState} {free : Nat}
    (st : mid.state ≠ .following) (notes : List Note) :
    (s.played c mid q f notes free).shownSpeed c = if mid.state = .live then 1200 else mid.speed := by
  rw [shownSpeed_eq (by simpa using st), played_channel_self]

/-- Settles O47: the sub-steps in turn, then placement in LIVE, settling and the present. -/
theorem subStepsInTurn : Obligations.SubStepsInTurn := by
  intro tag b w c k s s1 u hc on adv many
  dsimp only
  intro start base turn x lo hi h hop hx hb hle room live settles kept
  have run : runSubSteps c w.toNat k true (s1.setChannel c { s1.channel c with lastServed := some w.toNat }) = u k := by
    rw [← base]
    simpa using runSubSteps_eq c w.toNat k u 0 (by simpa using turn)
  have serve := serve_eq (tag := tag) adv run
  rw [if_pos many] at serve
  have state : ((u k).channel c).state ∈ [.cued, .playing, .shuttle, .jog] ∨ ((u k).channel c).state = .live := by
    obtain ⟨f, r, a, rfl⟩ := advances_base adv
    rw [← run]
    exact runs_state (runs_runSubSteps ..) (by rw [setChannel_channel_self]; exact start)
  have active : ((u k).channel c).state ≠ .idle := by
    rcases state with st | st
    · rintro h; simp [h] at st
    · simp [st]
  have alone : ((u k).channel c).state ≠ .following := by
    rcases state with st | st
    · rintro h; simp [h] at st
    · simp [st]
  have placed : (u k).place c = (u k).played c { (u k).channel c with head :=
      if ((u k).channel c).state = .live then
        (if hi < lo + ((u k).channel c).liveDelay then lo else hi - ((u k).channel c).liveDelay) * 1200
      else ((u k).channel c).head } ((u k).queue c) id (([] : List ReportBody).map .report) (u k).freeReads := by
    by_cases st : ((u k).channel c).state = .live
    · rw [place_live st (live st) (by rw [← live st]; exact hb), setChannel_eq_played, if_pos st]
      rfl
    · rw [place_other st alone, if_neg st]
      exact (played_self _ c).symm
  obtain ⟨f, shows, serves, channel, queue, log, faults, reports⟩ := served (n := w.toNat) (k := k) (tag := tag) placed
    active hx hb (settledHead_eq hle settles) kept rfl (fun _ => room) (paced_speed (by exact alone))
  rw [if_pos many] at queue
  refine ⟨_, f, serve ▸ frameRequest_leaves hc on, shows, serves, channel, queue, log, faults, ?_⟩
  rwa [List.nil_append] at reports

theorem runSubSteps_stay {c : ChannelId} {n k : Nat} {first : Bool} {s : State}
    (h : (s.channel c).state ∉ [.cued, .playing, .shuttle, .jog]) : runSubSteps c n k first s = s := by
  cases k with
  | zero => rfl
  | succ k => rw [runSubSteps, if_neg (mt stepsIn_iff.mp h)]

/-- A request answered, from what its sub-steps and its placement leave: the channel's record changed, and reports. -/
theorem request_answered {s s1 : State} {c : ChannelId} {k : Nat} {tag b : Byte} {w : Word} {x : TrainId}
    {lo hi h : Nat} {hop : Option (Nat × Nat)} {mid : Channel} {bodies : List ReportBody} {v : Int}
    (hc : b.toNat = c.val) (on : s.resetAsserted = false) (adv : s.advances c w.toNat k s1)
    (room : 1 ≤ k → s.roomLeft c)
    (placed : (if 1 ≤ k then
        (runSubSteps c w.toNat k true (s1.setChannel c { s1.channel c with lastServed := some w.toNat })).place c
        else runSubSteps c w.toNat k true (s1.setChannel c { s1.channel c with lastServed := some w.toNat })) =
      s1.played c mid (s.queue c) id (bodies.map .report) s.freeReads)
    (active : mid.state ≠ .idle) (hx : s.sourceTrain mid.source = some x) (hb : s.bounds mid.source = some (lo, hi))
    (settles : settledHead (s.train x) lo hi mid.head mid.speed = (h, hop))
    (kept : (s.train x).retained (h / 1200) = true) (blend : mid.blend = (s.channel c).blend)
    (pace : ∀ notes, (s1.played c { mid with head := h } (s.queue c) id notes s.freeReads).shownSpeed c = v) :
    ∃ t f, Leaves (.frameRequest tag b w) s t ∧ s.shows c x hi h f ∧
      let p : Present := ⟨c, w.toNat, some f, mid.state, v⟩
      s.serves t c tag p id ∧ t.channel c = { mid with head := h, lastPresent := some p } ∧
      t.queue c = (if 1 ≤ k then s.countedQueue c w.toNat else s.queue c) ∧ t.runLog = s.runLog ∧ s1.keepsFaults t ∧
      s1.raised t (bodies ++ holeReports c x hop) := by
  have serve := serve_eq (tag := tag) adv rfl
  rw [placed] at serve
  obtain ⟨fr, r, a, rfl⟩ := advances_base adv
  obtain ⟨f, shows, serves, channel, queue, log, faults, reports⟩ := served (n := w.toNat) (k := k) (tag := tag)
    (e := { s with faults := fr, reports := r, alarm := a }) rfl active hx hb settles kept blend room pace
  exact ⟨_, f, serve ▸ frameRequest_leaves hc on, shows, serves, channel, queue, log, faults, reports⟩

/-! ## FOLLOWING -/

theorem leaderOf_of_followerOf {l c : ChannelId} (h : followerOf l = some c) : leaderOf c = some l ∧ l ≠ c := by
  revert h
  revert l c
  decide

/-- A follower's present carries the leader's speed while it tracks, and 0 while it holds (R160). -/
theorem shownSpeed_following {s : State} {c l : ChannelId} {w : FollowState} {mid : Channel} {q : PlayQueue}
    {f : ArmState → ArmState} {notes : List Note} {free : Nat} (st : mid.state = .following)
    (role : mid.role = .follower w) (pair : followerOf l = some c) :
    (s.played c mid q f notes free).shownSpeed c =
      if w = .tracking then (if (s.channel l).state = .live then 1200 else (s.channel l).speed) else 0 := by
  obtain ⟨leader, ne⟩ := leaderOf_of_followerOf pair
  unfold State.shownSpeed
  simp [st, leader, role, played_channel_ne _ _ _ _ _ _ _ ne]

/-- A follower placed where its leader's head maps (R59, R159). -/
theorem place_tracking {s : State} {c l : ChannelId} {x : TrainId} {h : Nat} (st : (s.channel c).state = .following)
    (pair : followerOf l = some c) (src : (s.channel c).source = .train x) (found : s.mapFrom l x = .ok h) :
    s.place c = s.setChannel c { s.channel c with head := h, role := .follower .tracking } := by
  have train : s.sourceTrain (s.channel c).source = some x := by rw [src]; rfl
  unfold State.place
  rw [st]
  dsimp only
  unfold State.placeFollower
  simp only [(leaderOf_of_followerOf pair).1, train, found]

/-- A follower left where it is, holding, where its leader's head does not map (R59, R159). -/
theorem place_holding {s : State} {c l : ChannelId} {x : TrainId} {reason : HoldReason}
    (st : (s.channel c).state = .following) (pair : followerOf l = some c) (src : (s.channel c).source = .train x)
    (lost : s.mapFrom l x = .error reason) : s.place c =
      if (s.channel c).role = .follower .tracking then
        (s.setChannel c { s.channel c with role := .follower .holding }).raise
          (.followLost c l x ((s.channel c).head / 1200) reason)
      else s.setChannel c { s.channel c with role := .follower .holding } := by
  have train : s.sourceTrain (s.channel c).source = some x := by rw [src]; rfl
  unfold State.place
  rw [st]
  dsimp only
  unfold State.placeFollower
  simp only [(leaderOf_of_followerOf pair).1, train, lost]
  rfl

theorem mapFrom_failed {s : State} {l : ChannelId} {x : TrainId} {reason : HoldReason}
    (h : ((s.channel l).state = .idle ∧ reason = .leaderIdle) ∨
      ((s.channel l).state ≠ .idle ∧ ∃ y, s.sourceTrain (s.channel l).source = some y ∧
        ((s.mapHead y x (s.channel l).head = .untimed ∧ reason = .untimed) ∨
          (s.mapHead y x (s.channel l).head = .notFound ∧ reason = .notFound)))) :
    s.mapFrom l x = .error reason := by
  unfold State.mapFrom
  rcases h with ⟨idle, rfl⟩ | ⟨idle, y, hy, ⟨lost, rfl⟩ | ⟨lost, rfl⟩⟩
  · simp [idle]
  · simp [idle, hy, lost]
  · simp [idle, hy, lost]

/-- The leader's head maps alike whatever becomes of the follower's record. -/
theorem mapFrom_congr {s s1 : State} {c l : ChannelId} {n k : Nat} {x : TrainId} {ch : Channel}
    (adv : s.advances c n k s1) (ne : l ≠ c) : (s1.setChannel c ch).mapFrom l x = s.mapFrom l x := by
  obtain ⟨f, r, a, rfl⟩ := advances_base adv
  unfold State.mapFrom
  rw [setChannel_channel_ne _ _ _ ne]
  rfl

/-- Settles O48: LIVE and FOLLOWING run no sub-steps; the head is placed, settled and shown. -/
theorem headsPlaced : Obligations.HeadsPlaced := by
  intro tag b w c k s s1 x lo hi hc on adv src hb hle room
  dsimp only
  have same : s1.channel c = s.channel c ∧ s1.queue c = s.queue c ∧ s1.freeReads = s.freeReads := by
    obtain ⟨f, r, a, rfl⟩ := advances_base adv
    exact ⟨rfl, rfl, rfl⟩
  obtain ⟨channel, queue, free⟩ := same
  have run : (s.channel c).state ∉ [.cued, .playing, .shuttle, .jog] →
      runSubSteps c w.toNat k true (s1.setChannel c { s1.channel c with lastServed := some w.toNat }) =
        s1.setChannel c { s.channel c with lastServed := some w.toNat } := by
    intro still
    rw [channel]
    exact runSubSteps_stay (by rw [setChannel_channel_self]; exact still)
  refine ⟨fun h hop live many settles kept => ?_, fun l wait h hop st role pair => ?_⟩
  · have bound : s1.bounds (.train x) = some (lo, hi) := by
      obtain ⟨f, r, a, rfl⟩ := advances_base adv
      exact hb
    have placed := place_live (s := s1.setChannel c { s.channel c with lastServed := some w.toNat }) (c := c) (x := x)
      (lo := lo) (hi := hi) (by rw [setChannel_channel_self]; exact live) (by rw [setChannel_channel_self]; exact src)
      bound
    obtain ⟨t, f, done⟩ := request_answered (tag := tag) (bodies := []) (mid := { s.channel c with
        head := (if hi < lo + (s.channel c).liveDelay then lo else hi - (s.channel c).liveDelay) * 1200
        lastServed := some w.toNat }) hc on adv (fun _ => room) (by
      rw [if_pos many, run (by simp [live]), placed, setChannel_setChannel, setChannel_channel_self,
        setChannel_eq_played, queue, free]
      rfl) (by simp [live]) (by rw [src]; rfl) (by rw [src]; exact hb) (settledHead_eq hle settles) kept rfl
      (paced_speed (by simp [live]))
    simp only [live, if_true] at done
    rw [if_neg (by omega), live]
    rw [if_pos many] at done
    exact ⟨t, f, done⟩
  · have ne := (leaderOf_of_followerOf pair).2
    have leader : s1.channel l = s.channel l := by
      obtain ⟨f, r, a, rfl⟩ := advances_base adv
      rfl
    have st' : ((s1.setChannel c { s.channel c with lastServed := some w.toNat }).channel c).state = .following := by
      rw [setChannel_channel_self]; exact st
    have src' : ((s1.setChannel c { s.channel c with lastServed := some w.toNat }).channel c).source = .train x := by
      rw [setChannel_channel_self]; exact src
    have answered := fun (mid : Channel) (bodies : List ReportBody) (v : FollowState) =>
      request_answered (tag := tag) (b := b) (bodies := bodies) (mid := mid) (x := x) (lo := lo) (hi := hi) (h := h)
        (hop := hop) (v := if v = .tracking then
          (if (s.channel l).state = .live then 1200 else (s.channel l).speed) else 0) hc on adv (fun _ => room)
    have pace : ∀ (mid : Channel) (v : FollowState), mid.state = .following → mid.role = .follower v →
        ∀ notes, (s1.played c mid (s.queue c) id notes s.freeReads).shownSpeed c = if v = .tracking then
          (if (s.channel l).state = .live then 1200 else (s.channel l).speed) else 0 := by
      intro mid v following role notes
      rw [← leader]
      exact shownSpeed_following following role pair
    refine ⟨fun zero settles kept => ?_, fun y at' many idle hy found settles kept => ?_,
      fun reason many lost settles kept => ?_⟩
    · obtain ⟨t, f, done⟩ := answered { s.channel c with lastServed := some w.toNat } [] wait (by
        rw [if_neg (by omega), run (by simp [st]), setChannel_eq_played, queue, free]
        rfl) (by simp [st]) (by rw [src]; rfl) (by rw [src]; exact hb) (settledHead_eq hle settles) kept rfl
        (pace _ _ (by exact st) (by exact role))
      rw [if_neg (show ¬1 ≤ k by omega)] at done
      rw [if_pos zero]
      exact ⟨t, f, done⟩
    · obtain ⟨t, f, done⟩ := answered { s.channel c with
          head := at', role := .follower .tracking, lastServed := some w.toNat } [] .tracking (by
        rw [if_pos many, run (by simp [st]),
          place_tracking st' pair src' ((mapFrom_congr adv ne).trans (mapFrom_found idle hy found)),
          setChannel_channel_self, setChannel_setChannel, setChannel_eq_played, queue, free]
        rfl) (by simp [st]) (by rw [src]; rfl) (by rw [src]; exact hb) (settledHead_eq hle settles) kept rfl
        (pace _ _ (by exact st) (by rfl))
      rw [if_pos many] at done
      rw [if_neg (show ¬k = 0 by omega)]
      exact ⟨t, f, done⟩
    · obtain ⟨t, f, done⟩ := answered { s.channel c with role := .follower .holding, lastServed := some w.toNat }
          (if wait = .tracking then [.followLost c l x ((s.channel c).head / 1200) reason] else []) .holding (by
        rw [if_pos many, run (by simp [st]),
          place_holding st' pair src' ((mapFrom_congr adv ne).trans (mapFrom_failed lost)), setChannel_channel_self]
        simp only [role, GangRole.follower.injEq]
        split <;> simp [raise_eq_played _ c, setChannel_eq_played, queue, free]) (by simp [st]) (by rw [src]; rfl)
        (by rw [src]; exact hb) (settledHead_eq hle settles) kept rfl (pace _ _ (by exact st) (by rfl))
      rw [if_pos many] at done
      rw [if_neg (show ¬k = 0 by omega)]
      exact ⟨t, f, done⟩

end Sys2Proof.Machine
end

section
/-! A FRAME_REQUEST inside the bounds (R49 to R54, R57, R60 to R66): repeats, plain sub-steps and displaced heads. -/

namespace Sys2Proof.Machine

/-- A step inside the bounds onto a retained frame, short of the bound it runs to, resolves to itself. -/
theorem resolve_within {t : Train} {lo hi h : Nat} {v : Int} (travel : Direction) (low : lo * 1200 ≤ h)
    (high : h ≤ hi * 1200) (kept : t.retained (h / 1200) = true) (up : 0 < v → h < hi * 1200)
    (down : v < 0 → lo * 1200 < h) : resolve t lo hi h v travel = ⟨h, none, none⟩ := by
  have hole : inHole t lo hi h = false := by simp [inHole, Config.sfu, kept]
  have free : stepReaches lo hi h v = none := by
    rw [stepReaches_eq, if_neg (by omega), if_neg (by omega)]
  unfold resolve
  simp only [clampHead_eq, clampedHead_within low high, hole, free]
  rfl

section steps

variable {s : State} {c : ChannelId} {n k : Nat} {x : TrainId} {lo hi : Nat}

/-- Channel c's record after sub-steps that reach nothing: the speed, the head, and the edge-hold flag of SHUTTLE
cleared once one has run. -/
def Channel.stepped (ch : Channel) (count j : Nat) (v : Int) (h : Nat) : Channel :=
  { ch with
    head := h, speed := v, lastServed := some count
    edgeHold := if j ≠ 0 ∧ ch.state = .shuttle then false else ch.edgeHold }

/-- What sub-steps that reach nothing have left. -/
def State.steppedTo (s : State) (c : ChannelId) (count j : Nat) (v : Int) (h : Nat) : State :=
  s.played c ((s.channel c).stepped count j v h) (s.queue c) id [] s.freeReads

theorem steppedTo_channel (count j : Nat) (v : Int) (h : Nat) :
    (s.steppedTo c count j v h).channel c = (s.channel c).stepped count j v h := played_channel_self ..

/-- One more sub-step that reaches nothing. -/
theorem steppedTo_succ {j : Nat} {v w : Int} {h h' : Nat} {first : Bool}
    (step : (s.steppedTo c n j v h).subStep c n first =
      ((s.steppedTo c n j v h).moved c w h' []).boundEvent c n lo none) :
    (s.steppedTo c n j v h).subStep c n first = s.steppedTo c n (j + 1) w h' := by
  rw [step, boundEvent_unreached (fun _ => rfl)]
  unfold State.steppedTo
  simp only [played_channel_self, played_queue_self, played_played, played_freeReads, List.map_nil, List.append_nil,
    Function.id_comp]
  congr 1
  by_cases st : (s.channel c).state = .shuttle <;> simp [Channel.stepped, st]

/-- The sub-steps of a request, one after the other, each reaching nothing. -/
theorem runSubSteps_steppedTo (v : Nat → Int) (h : Nat → Nat) (st : (s.channel c).state ∈ [.cued, .playing, .shuttle])
    (armed : (s.channel c).state = .shuttle → ∀ q, (s.panel q).binding = some c → (s.panel q).arm ≠ .lost)
    (hx : s.sourceTrain (s.channel c).source = some x) (hb : s.bounds (s.channel c).source = some (lo, hi))
    (v0 : v 0 = (s.channel c).speed) (h0 : h 0 = (s.channel c).head)
    (ramps : ∀ j, j < k → v (j + 1) = (s.channel c).rampedFrom (v j))
    (steps : ∀ j, j < k →
      ((s.steppedTo c n j (v j) (h j)).leftOff c x lo hi ∧ h (j + 1) = h j) ∨
      (¬(s.steppedTo c n j (v j) (h j)).leftOff c x lo hi ∧ (h (j + 1) : Int) = h j + v (j + 1) * (s.train x).multiple ∧
        lo * 1200 ≤ h (j + 1) ∧ h (j + 1) ≤ hi * 1200 ∧ (0 < v (j + 1) → h (j + 1) < hi * 1200) ∧
        (v (j + 1) < 0 → lo * 1200 < h (j + 1)) ∧ (s.train x).retained (h (j + 1) / 1200) = true)) :
    runSubSteps c n k true (s.setChannel c { s.channel c with lastServed := some n }) = s.steppedTo c n k (v k) (h k) := by
  have start : s.setChannel c { s.channel c with lastServed := some n } = s.steppedTo c n 0 (v 0) (h 0) := by
    rw [setChannel_eq_played, v0, h0]
    rfl
  have run := runSubSteps_eq c n k (fun j => s.steppedTo c n j (v j) (h j)) 0 fun i lt => ?_
  · rw [start]
    simpa using run
  · simp only [Nat.zero_add]
    have within : ((s.steppedTo c n i (v i) (h i)).channel c).state ∈ [.cued, .playing, .shuttle, .jog] := by
      rw [steppedTo_channel]
      simp only [List.mem_cons, List.not_mem_nil, or_false] at st ⊢
      tauto
    have nojog : decide (i = 0) = true → ((s.steppedTo c n i (v i) (h i)).channel c).state ≠ .jog := by
      intro _ jog
      rw [steppedTo_channel] at jog
      rw [show (s.channel c).state = .jog from jog] at st
      simp at st
    have armed' : ((s.steppedTo c n i (v i) (h i)).channel c).state = .shuttle →
        ((s.steppedTo c n i (v i) (h i)).channel c).rampedFrom ((s.steppedTo c n i (v i) (h i)).channel c).speed = 0 →
        ∀ q, ((s.steppedTo c n i (v i) (h i)).panel q).binding = some c →
          ((s.steppedTo c n i (v i) (h i)).panel q).arm ≠ .lost := by
      intro shuttle _ q hq
      rw [steppedTo_channel] at shuttle
      rw [State.steppedTo, played_panel, rearm_id] at hq ⊢
      exact armed shuttle q hq
    have train : (s.steppedTo c n i (v i) (h i)).sourceTrain ((s.steppedTo c n i (v i) (h i)).channel c).source =
        some x := by rw [steppedTo_channel]; exact hx
    have bounds : (s.steppedTo c n i (v i) (h i)).bounds ((s.steppedTo c n i (v i) (h i)).channel c).source =
        some (lo, hi) := by rw [steppedTo_channel]; exact hb
    have ramp : ((s.steppedTo c n i (v i) (h i)).channel c).rampedFrom
        ((s.steppedTo c n i (v i) (h i)).channel c).speed = v (i + 1) := by
      rw [steppedTo_channel, ramps i lt]
      rfl
    rw [if_pos within]
    refine (steppedTo_succ (lo := lo) ?_).symm
    rcases steps i lt with ⟨off, same⟩ | ⟨stay, moved, low, high, up, down, kept⟩
    · rw [subStep_displaced nojog armed' train bounds off, ramp, steppedTo_channel, same]
      rfl
    · rw [subStep_resolved (h := h (i + 1)) (hop := none) (reached := none) nojog armed' train bounds stay, ramp]
      · rfl
      · rw [ramp, steppedTo_channel]
        show resolve (s.train x) lo _ ((h i : Int) + v (i + 1) * (s.train x).multiple) (v (i + 1)) _ = _
        rw [← moved]
        exact resolve_within _ low high kept up down

/-- The head a displaced or a plain sub-step starts from. -/
theorem steppedTo_leftOff {j : Nat} {v : Int} {h : Nat} : (s.steppedTo c n j v h).leftOff c x lo hi ↔
    (lo ≤ h / 1200 ∧ h / 1200 ≤ hi ∧ (s.train x).retained (h / 1200) = false) ∨
      ((∃ id i, (s.channel c).source = .clip id i) ∧ (hi * 1200 < h ∨ h < lo * 1200)) := by
  unfold State.leftOff
  rw [steppedTo_channel]
  rfl

end steps

theorem advances_repeat {s s1 : State} {c : ChannelId} {n : Nat} (h : s.advances c n 0 s1) :
    (s.channel c).lastServed = some n := by
  rcases h with ⟨-, absurd, -⟩ | ⟨m, d, last, hm, -, rfl, ⟨-, rfl, -⟩ | ⟨-, absurd, -⟩⟩
  · cases absurd
  · rw [last, Nat.add_zero, Nat.mod_eq_of_lt hm]
  · cases absurd

/-- A request on an IDLE channel answers BLACK (R49, R64). -/
theorem request_idle {s s1 : State} {c : ChannelId} {k : Nat} {tag b : Byte} {w : Word} (hc : b.toNat = c.val)
    (on : s.resetAsserted = false) (adv : s.advances c w.toNat k s1) (idle : (s.channel c).state = .idle)
    (closed : (s.queue c).session = none) :
    let p : Present := ⟨c, w.toNat, none, .idle, 0⟩
    ∃ t, Leaves (.frameRequest tag b w) s t ∧ s.serves t c tag p id ∧
      t.channel c = { s.channel c with lastServed := some w.toNat, lastPresent := some p } ∧ t.queue c = s.queue c ∧
      t.runLog = s.runLog ∧ s1.keepsFaults t ∧ t.reports = s1.reports := by
  have serve := serve_eq (tag := tag) adv rfl
  obtain ⟨f, r, a, rfl⟩ := advances_base adv
  have counted : s.countedQueue c w.toNat = s.queue c := by
    rcases hq : s.queue c with ⟨es, on, session⟩
    rw [hq] at closed
    simp_all [State.countedQueue]
  let e : State := { s with faults := f, reports := r, alarm := a }
  let u := e.setChannel c { e.channel c with lastServed := some w.toNat }
  have record : u.channel c = { s.channel c with lastServed := some w.toNat } := setChannel_channel_self ..
  have still : (u.channel c).state = .idle := by rw [record]; exact idle
  have run : runSubSteps c w.toNat k true u = u := runSubSteps_stay (by simp [still])
  have place : u.place c = u := place_other (by simp [still]) (by simp [still])
  have settle : u.settle c = u := by unfold State.settle; simp only [if_pos still]
  have served : s.serve c w.toNat tag = u.keepPresent c w.toNat k tag := by
    rw [serve]
    show ((if 1 ≤ k then (runSubSteps c w.toNat k true u).place c else runSubSteps c w.toNat k true u).settle
      c).keepPresent c w.toNat k tag = _
    rw [run, place, ite_self, settle]
  have room : u.roomLeft c := fun r hr => by
    have : (s.queue c).session = some r := hr
    rw [closed] at this
    cases this
  obtain ⟨serves, channel, queue, log, faults, reports⟩ := keepPresent_serves u c w.toNat k tag fun _ => room
  have present : u.formPresent c w.toNat = ⟨c, w.toNat, none, .idle, 0⟩ := by
    unfold State.formPresent
    simp only [if_pos still]
  have same : u.countedQueue c w.toNat = u.queue c := counted
  rw [present] at serves channel
  rw [same, ite_self] at queue
  have form : u = e.played c { s.channel c with lastServed := some w.toNat } (e.queue c) id [] e.freeReads :=
    setChannel_eq_played ..
  rw [record] at channel
  have leaves := frameRequest_leaves (tag := tag) (w := w) hc on
  rw [served] at leaves
  generalize u.keepPresent c w.toNat k tag = t at serves channel queue log faults reports leaves
  rw [form] at serves
  exact ⟨t, leaves, serves_of_played (e := e) serves, channel, queue, log, faults, reports⟩

/-- Settles O46: the request by its advance count, the state of its channel and the head it starts from. -/
theorem frameRequestServed : Obligations.FrameRequestServed := by
  refine ⟨fun tag b w s unnamed on => ?_, fun tag b w c k s s1 hc on adv => ?_⟩
  · show powered s (State.frameRequest tag b w) = _
    unfold powered State.frameRequest
    rw [on, channelOf_eq_none unnamed]
    rfl
  · refine ⟨fun idle closed => request_idle hc on adv idle closed, fun x lo hi hx hb hle =>
      ⟨fun h hop again st settles kept => ?_, fun v many st armed room v0 ramps => ?_⟩⟩
    · subst again
      have same : ({ s.channel c with lastServed := some w.toNat } : Channel) = s.channel c := by
        rw [← advances_repeat adv]
      have active : (s.channel c).state ≠ .idle := by intro h; simp [h] at st
      have alone : (s.channel c).state ≠ .following := by intro h; simp [h] at st
      have base : s1.channel c = s.channel c ∧ s1.queue c = s.queue c ∧ s1.freeReads = s.freeReads := by
        obtain ⟨f, r, a, rfl⟩ := advances_base adv
        exact ⟨rfl, rfl, rfl⟩
      obtain ⟨channel, queue, free⟩ := base
      exact request_answered (bodies := []) (mid := s.channel c) hc on adv (fun h => absurd h (by decide)) (by
        rw [if_neg (by decide), runSubSteps, channel, same, setChannel_eq_played, queue, free]
        rfl) active hx hb (settledHead_eq hle settles) kept rfl (paced_speed (by exact alone))
    · have alone : (s.channel c).state ≠ .following := by intro h; simp [h] at st
      have active : (s.channel c).state ≠ .idle := by intro h; simp [h] at st
      have live : (s.channel c).state ≠ .live := by intro h; simp [h] at st
      have answered : ∀ (h : Nat → Nat) (h' : Nat) (hop : Option (Nat × Nat)),
          runSubSteps c w.toNat k true (s1.setChannel c { s1.channel c with lastServed := some w.toNat }) =
            s1.steppedTo c w.toNat k (v k) (h k) →
          settledHead (s.train x) lo hi (h k) (v k) = (h', hop) → (s.train x).retained (h' / 1200) = true →
          ∃ t f, Leaves (.frameRequest tag b w) s t ∧ s.shows c x hi h' f ∧
            let p : Present := ⟨c, w.toNat, some f, (s.channel c).state, v k⟩
            s.serves t c tag p id ∧ t.channel c = { s.channel c with
              head := h', speed := v k
              edgeHold := if (s.channel c).state = .shuttle then false else (s.channel c).edgeHold
              lastServed := some w.toNat, lastPresent := some p } ∧
            t.queue c = s.countedQueue c w.toNat ∧ t.runLog = s.runLog ∧ s1.keepsFaults t ∧
            s1.raised t (holeReports c x hop) := by
        intro h h' hop run settled kept
        obtain ⟨t, f, leaves, shows, serves, channel, queue, rest⟩ := request_answered (tag := tag) (bodies := [])
          (mid := (s.channel c).stepped w.toNat k (v k) (h k)) hc on adv (fun _ => room) (by
            rw [if_pos many, run]
            obtain ⟨fr, r, a, rfl⟩ := advances_base adv
            rw [place_other (by rw [steppedTo_channel]; exact live) (by rw [steppedTo_channel]; exact alone)]
            rfl) active hx hb settled kept rfl (paced_speed (by exact alone))
        rw [if_pos many] at queue
        have pace : (if (s.channel c).state = .live then 1200 else v k) = v k := if_neg live
        have flag : (k ≠ 0 ∧ (s.channel c).state = .shuttle) = ((s.channel c).state = .shuttle) := by
          rw [eq_iff_iff]
          exact ⟨And.right, fun st => ⟨by omega, st⟩⟩
        simp only [Channel.stepped, pace, flag] at serves channel
        exact ⟨t, f, leaves, shows, serves, channel, queue, rest⟩
      have run : ∀ h : Nat → Nat, h 0 = (s.channel c).head → (∀ j, j < k →
          ((s.steppedTo c w.toNat j (v j) (h j)).leftOff c x lo hi ∧ h (j + 1) = h j) ∨
          (¬(s.steppedTo c w.toNat j (v j) (h j)).leftOff c x lo hi ∧
            (h (j + 1) : Int) = h j + v (j + 1) * (s.train x).multiple ∧
            lo * 1200 ≤ h (j + 1) ∧ h (j + 1) ≤ hi * 1200 ∧ (0 < v (j + 1) → h (j + 1) < hi * 1200) ∧
            (v (j + 1) < 0 → lo * 1200 < h (j + 1)) ∧ (s.train x).retained (h (j + 1) / 1200) = true)) →
          runSubSteps c w.toNat k true (s1.setChannel c { s1.channel c with lastServed := some w.toNat }) =
            s1.steppedTo c w.toNat k (v k) (h k) := by
        intro h h0 steps
        obtain ⟨fr, r, a, rfl⟩ := advances_base adv
        exact runSubSteps_steppedTo v h st armed hx hb v0 h0 ramps steps
      refine ⟨fun h hop off settles kept => ?_, fun h stay h0 steps => ?_⟩
      · exact answered (fun _ => (s.channel c).head) h hop
          (run (fun _ => (s.channel c).head) rfl fun _ _ => .inl ⟨steppedTo_leftOff.mpr off, rfl⟩)
          (settledHead_eq hle settles) kept
      · obtain ⟨j, rfl⟩ : ∃ j, k = j + 1 := ⟨k - 1, by omega⟩
        obtain ⟨-, low, high, -, -, kept⟩ := steps j (by omega)
        refine answered h (h (j + 1)) none (run h h0 fun i hi => .inr ⟨fun off => ?_, steps i hi⟩)
          (settledHead_within low high kept) kept
        cases i with
        | zero =>
          rw [h0] at off
          exact stay (steppedTo_leftOff.mp off)
        | succ i =>
          obtain ⟨-, low, high, -, -, kept⟩ := steps i (by omega)
          rcases steppedTo_leftOff.mp off with ⟨-, -, hole⟩ | ⟨-, out⟩
          · rw [kept] at hole; cases hole
          · omega

end Sys2Proof.Machine
end

section
/-! Angles and ganged channels (spec 08): the switch of angle and of train, GANG and UNGANG. -/

namespace Sys2Proof.Machine

/-! ## Switching angle (R150 to R152) -/

section switch

variable {s : State} {c : ChannelId}

/-- A head is mapped onto an angle where it maps on its train, inside the angle's range (R150, step 6). -/
theorem angleHead_ok {x : TrainId} {head h : Nat} {a : Angle} : s.angleHead x head a = .ok h ↔
    s.mapHead x a.train head = .found h ∧ a.inSerial ≤ h / 1200 ∧ h / 1200 ≤ a.outSerial := by
  unfold State.angleHead
  cases s.mapHead x a.train head with
  | untimed => simp
  | notFound => simp
  | found n =>
    dsimp only
    by_cases within : a.inSerial ≤ n / Config.sfu ∧ n / Config.sfu ≤ a.outSerial
    · rw [if_pos within]
      constructor
      · intro ok
        obtain rfl := Except.ok.inj ok
        exact ⟨rfl, within⟩
      · rintro ⟨same, -⟩
        rw [Lookup.found.inj same]
    · rw [if_neg within]
      refine iff_of_false (by simp) fun ⟨same, low, high⟩ => within ?_
      rw [Lookup.found.inj same]
      exact ⟨low, high⟩

theorem angleHead_outside {x : TrainId} {head h : Nat} {a : Angle} (found : s.mapHead x a.train head = .found h)
    (out : h / 1200 < a.inSerial ∨ a.outSerial < h / 1200) : s.angleHead x head a = .error .notFound := by
  unfold State.angleHead
  rw [found]
  exact if_neg (by simp only [Config.sfu]; omega)

/-- A switch to another angle of the clip: the source and the head change, and the session's train (R151). -/
theorem switchAngle_eq_played (id index : Nat) (a : Angle) (head : Nat) (cause : Cause) :
    s.switchAngle c id index a head cause =
    let new : Channel := { s.channel c with source := .clip id index, head := head, edgeHold := false }
    s.played c new { s.queue c with session := (s.queue c).session.map fun r => { r with train := a.train } }
      (leaveArm (s.channel c).state new.state) ((s.changeReport c new cause).map .report) s.freeReads := by
  unfold State.switchAngle State.retrainSession
  rw [setQueue_eq_played, commit_eq_played]
  simp [Channel.leave, played_changeReport]

theorem switchAngle_playsOn {id index cur : Nat} {a : Angle} {head : Nat} {cause : Cause}
    (src : (s.channel c).source = .clip id cur) (h : (s.channel c).state ≠ .following) :
    s.PlaysOn (s.switchAngle c id index a head cause) c := by
  rw [switchAngle_eq_played]
  refine ⟨_, _, _, _, _, rfl, {
    fits := fun fit => fit
    range := fun law => law.1 c
    entries := fun law => law.2.2.1 c
    following := fun _ => Iff.rfl
    ganged := fun _ following => absurd following h
    leader := fun _ => Iff.rfl
    follower := fun _ => rfl
    queue := fun law => ⟨(law c).1, fun on => ?_⟩
    told := told_of_changeReport cause fun b hb => List.mem_map_of_mem hb }⟩
  obtain ⟨e, rest, i, entries, playing⟩ := (law c).2 on
  rw [src] at playing
  obtain ⟨rfl, -⟩ := Source.clip.injEq .. ▸ playing
  exact ⟨e, rest, index, entries, rfl⟩

theorem angleOn_absent {id cur i : Nat} {old : Angle} (idle : (s.channel c).state ≠ .idle)
    (src : (s.channel c).source = .clip id cur) (current : s.angleOf id cur = some old)
    (absent : ∀ g, s.angleOf id i = some g → g.present = false) : angleOn c i s = .refuse .notFound := by
  unfold angleOn
  rw [if_neg idle, src]
  dsimp only
  rw [current]
  cases h : s.angleOf id i with
  | none => rfl
  | some g => simp [absent g h]

theorem angleOn_present {id cur i : Nat} {old g : Angle} (idle : (s.channel c).state ≠ .idle)
    (src : (s.channel c).source = .clip id cur) (current : s.angleOf id cur = some old)
    (angle : s.angleOf id i = some g) (present : g.present = true) :
    (i = cur → angleOn c i s = .done s (.angle (s.transport c) i g.train)) ∧
    (∀ st, i ≠ cur → s.angleHead old.train (s.channel c).head g = .error st → angleOn c i s = .refuse st) ∧
    ∀ h, i ≠ cur → s.angleHead old.train (s.channel c).head g = .ok h →
      angleOn c i s = .done (s.switchAngle c id i g h .command)
        (.angle ((s.switchAngle c id i g h .command).transport c) i g.train) := by
  refine ⟨fun same => ?_, fun st other fails => ?_, fun h other ok => ?_⟩ <;> unfold angleOn <;>
    rw [if_neg idle, src] <;> dsimp only <;> rw [current, angle]
  · simp [present, same]
  · simp [present, other, fails]
  · simp [present, other, ok]

theorem angleOn_plays {i : Nat} (h : (s.channel c).state ≠ .following) : (angleOn c i s).leads State.Plays s := by
  unfold angleOn
  split
  · trivial
  · split
    · trivial
    · trivial
    · next src =>
      split
      · split
        · trivial
        · split
          · exact plays_refl s
          · split
            · trivial
            · exact ⟨c, switchAngle_playsOn src h⟩
      · trivial

/-! ## The first item not passed over -/

theorem firstTaken_none {α β : Type} {f : α → Option β} {l : List α} (h : ∀ a ∈ l, f a = none) (k : Nat) :
    firstTaken f l k = none := by
  induction l generalizing k with
  | nil => rfl
  | cons a rest ih =>
    unfold firstTaken
    rw [h a List.mem_cons_self]
    exact ih (fun b hb => h b (List.mem_cons_of_mem _ hb)) _

theorem firstTaken_some {α β : Type} {f : α → Option β} {pre post : List α} {a : α} {b : β}
    (h : ∀ a ∈ pre, f a = none) (taken : f a = some b) (k : Nat) :
    firstTaken f (pre ++ a :: post) k = some (b, k + pre.length) := by
  induction pre generalizing k with
  | nil =>
    rw [List.nil_append]
    unfold firstTaken
    rw [taken]
    rfl
  | cons d rest ih =>
    rw [List.cons_append]
    unfold firstTaken
    rw [h d List.mem_cons_self, List.length_cons, show k + (rest.length + 1) = k + 1 + rest.length by omega]
    exact ih (fun b hb => h b (List.mem_cons_of_mem _ hb)) _

/-! ## ANGLE_NEXT -/

theorem nextRefusal_eq {α : Type} (x : TrainId) (head : Nat) (tried : List α) : s.nextRefusal x head tried =
    if tried ≠ [] ∧ s.timecodeAt x (head / 1200) = .untimed then .untimed else .notFound := by
  have untimed : s.headUntimed x head = decide (s.timecodeAt x (head / 1200) = .untimed) := by
    unfold State.headUntimed
    simp only [Config.sfu]
    cases s.timecodeAt x (head / 1200) <;> simp
  unfold State.nextRefusal
  rw [untimed]
  cases tried <;> simp

theorem tryAngle_none {id i : Nat} {x : TrainId} {head : Nat}
    (passed : ∀ g, s.angleOf id i = some g → g.present = true →
      ∀ h, s.mapHead x g.train head = .found h → h / 1200 < g.inSerial ∨ g.outSerial < h / 1200) :
    s.tryAngle id x head i = none := by
  unfold State.tryAngle
  cases angle : s.angleOf id i with
  | none => rfl
  | some g =>
    by_cases present : g.present = true
    · simp only [present, if_true]
      cases ok : s.angleHead x head g with
      | error st => rfl
      | ok h =>
        obtain ⟨found, low, high⟩ := angleHead_ok.mp ok
        rcases passed g angle present h found with out | out
        · omega
        · omega
    · simp [present]

theorem tryAngle_some {id i : Nat} {x : TrainId} {head h : Nat} {g : Angle} (angle : s.angleOf id i = some g)
    (present : g.present = true) (ok : s.angleHead x head g = .ok h) : s.tryAngle id x head i = some (i, g, h) := by
  simp [State.tryAngle, angle, present, ok]

/-- ANGLE_NEXT on a clip takes the first angle not passed over, or is refused (R152). -/
theorem angleNextOnClip_eq {id cur : Nat} {k : Clip} {old : Angle} {cause : Cause} (clip : s.clipOf id = some k)
    (current : s.angleOf id cur = some old) :
    (firstTaken (s.tryAngle id old.train (s.channel c).head) (anglesAfter cur k.angles.length) 0 = none →
      angleNextOnClip c id cur cause s =
        .refuse (s.nextRefusal old.train (s.channel c).head (anglesAfter cur k.angles.length))) ∧
    ∀ i g h n, firstTaken (s.tryAngle id old.train (s.channel c).head) (anglesAfter cur k.angles.length) 0 =
        some ((i, g, h), n) →
      angleNextOnClip c id cur cause s = .done (s.switchAngle c id i g h cause)
        (.angleNext ((s.switchAngle c id i g h cause).transport c) i g.train n) := by
  refine ⟨fun fails => ?_, fun i g h n taken => ?_⟩ <;> unfold angleNextOnClip <;> rw [clip, current] <;> dsimp only
  · rw [fails]
  · rw [taken]

/-! ## ANGLE_NEXT on an angle group (R153) -/

theorem hasFrame_iff {t : Train} : t.hasFrame = true ↔ ∃ e, t.recordEdge = some e := by
  have found : ∀ l : List ChainEntry, (∃ e, (l.find? (·.nonEmpty)).map (·.last) = some e) ↔ ∃ e ∈ l, e.nonEmpty = true := by
    intro l
    rw [← List.find?_isSome, Option.isSome_iff_exists]
    simp
  rw [Train.hasFrame, Train.recordEdge, found]
  simp

/-- The trains tried are those of the group after the current one, wrapping, without it (R153). -/
theorem trainsAfter_eq {x : TrainId} {group order : List TrainId}
    (h : (x ∉ group ∧ order = group) ∨ ∃ g1 g2, group = g1 ++ x :: g2 ∧ x ∉ g1 ∧ order = (g2 ++ g1).filter (· != x)) :
    trainsAfter x group = order := by
  unfold trainsAfter
  rcases h with ⟨out, rfl⟩ | ⟨g1, g2, rfl, out, rfl⟩
  · have none : order.findIdx? (· == x) = none := by
      rw [List.findIdx?_eq_none_iff]
      intro y hy
      simpa using fun e : y = x => out (e ▸ hy)
    rw [none]
    simp only [List.drop_zero, List.take_zero, List.append_nil, List.filter_eq_self]
    intro y hy
    simpa using fun e : y = x => out (e ▸ hy)
  · have found : (g1 ++ x :: g2).findIdx? (· == x) = some g1.length := by
      rw [List.findIdx?_append, List.findIdx?_eq_none_iff.mpr, Option.none_or, List.findIdx?_cons]
      · simp
      · intro y hy
        simpa using fun e : y = x => out (e ▸ hy)
    rw [found]
    have past : g1.drop (g1.length + 1) = [] := List.drop_eq_nil_of_le (by omega)
    have whole : g1.take (g1.length + 1) = g1 := List.take_of_length_le (by omega)
    simp [List.drop_append, List.take_append, past, whole]

theorem tryTrain_none {ch : Channel} {x y : TrainId} (passed : (s.train y).recordEdge = none ∨
    (ch.state ≠ .live ∧ ∀ h, s.mapHead x y ch.head ≠ .found h)) : s.tryTrain ch x y = none := by
  unfold State.tryTrain
  split
  · next holds =>
    obtain ⟨e, he⟩ := hasFrame_iff.mp holds
    rcases passed with empty | ⟨live, lost⟩
    · rw [empty] at he; cases he
    · rw [if_neg live]
      split
      · next h found => exact absurd found (lost h)
      · rfl
  · rfl

theorem tryTrain_some {ch : Channel} {x y : TrainId} {edge oldest : Nat} (he : (s.train y).recordEdge = some edge)
    (ho : (s.train y).oldestEdge = some oldest) :
    (∀ h, ch.state ≠ .live → s.mapHead x y ch.head = .found h → s.tryTrain ch x y = some (y, h)) ∧
    (ch.state = .live → s.tryTrain ch x y =
      some (y, (if edge < oldest + ch.liveDelay then oldest else edge - ch.liveDelay) * 1200)) := by
  have holds := hasFrame_iff.mpr ⟨edge, he⟩
  refine ⟨fun h live found => ?_, fun live => ?_⟩
  · simp [State.tryTrain, holds, live, found]
  · simp [State.tryTrain, holds, live, liveHead_eq ho he]

/-- A switch of train (R153). -/
theorem switchTrain_eq_played (y : TrainId) (h : Nat) (cause : Cause) :
    s.commit c cause { s.channel c with source := .train y, head := h, edgeHold := false } =
    let new : Channel := { s.channel c with source := .train y, head := h, edgeHold := false }
    s.played c new (s.queue c) (leaveArm (s.channel c).state new.state) ((s.changeReport c new cause).map .report)
      s.freeReads := by
  rw [commit_eq_played]
  simp [Channel.leave]

theorem angleNextOnTrain_eq {x : TrainId} {cause : Cause} {order : List TrainId}
    (group : trainsAfter x (s.channel c).angleGroup = order) :
    (firstTaken (s.tryTrain (s.channel c) x) order 0 = none →
      angleNextOnTrain c x cause s = .refuse (s.nextRefusal x (s.channel c).head order)) ∧
    ∀ y h n, firstTaken (s.tryTrain (s.channel c) x) order 0 = some ((y, h), n) →
      let t := s.commit c cause { s.channel c with source := .train y, head := h, edgeHold := false }
      angleNextOnTrain c x cause s = .done t (.trainNext (t.transport c) y n) := by
  subst group
  refine ⟨fun fails => ?_, fun y h n taken => ?_⟩ <;> unfold angleNextOnTrain <;> dsimp only
  · rw [fails]
  · rw [taken]

theorem angleNextOn_plays {cause : Cause} (h : (s.channel c).state ≠ .following) :
    (angleNextOn c cause s).leads State.Plays s := by
  unfold angleNextOn
  split
  · trivial
  · split
    · trivial
    · next src =>
      unfold angleNextOnClip
      split
      · dsimp only
        split
        · exact ⟨c, switchAngle_playsOn src h⟩
        · trivial
      · trivial
    · next src =>
      unfold angleNextOnTrain
      dsimp only
      split
      · refine ⟨c, ?_⟩
        rw [switchTrain_eq_played]
        refine ⟨_, _, _, _, _, rfl, {
          fits := id
          range := fun law => law.1 c
          entries := fun law => law.2.2.1 c
          following := fun _ => Iff.rfl
          ganged := fun _ following => absurd following h
          leader := fun _ => Iff.rfl
          follower := fun _ => rfl
          queue := fun law => ⟨(law c).1, fun on => ?_⟩
          told := told_of_changeReport cause fun b hb => List.mem_map_of_mem hb }⟩
        obtain ⟨e, rest, i, -, playing⟩ := (law c).2 on
        rw [src] at playing
        cases playing
      · trivial

theorem angle_plays (a : ChannelByteArgs) (s : State) : (angle a s).leads State.Plays s := by
  refine leads_onChannel fun c => ?_
  split
  · exact leads_ungangedOn fun h => angleOn_plays h
  · trivial

theorem angleNext_plays (b : Byte) (s : State) : (angleNext b s).leads State.Plays s :=
  leads_onChannel fun _ => leads_ungangedOn fun h => angleNextOn_plays h

end switch

/-- ANGLE with its index in range, on a channel outside FOLLOWING. -/
theorem angle_eq {a : ChannelByteArgs} {c : ChannelId} {s : State} (hc : a.channel.toNat = c.val)
    (small : a.value.toNat < 8) (free : (s.channel c).state ≠ .following) : angle a s = angleOn c a.value.toNat s := by
  refine (onChannel_of_named hc _ s).trans ?_
  rw [angleIndexOf_eq_some small]
  exact ungangedOn_eq _ free

theorem angleNext_eq {b : Byte} {c : ChannelId} {s : State} (hc : b.toNat = c.val)
    (free : (s.channel c).state ≠ .following) : angleNext b s = angleNextOn c .command s :=
  (onChannel_of_named hc _ s).trans (ungangedOn_eq _ free)

theorem angleNext_clip {b : Byte} {c : ChannelId} {s : State} {id cur : Nat} (hc : b.toNat = c.val)
    (idle : (s.channel c).state ≠ .idle) (free : (s.channel c).state ≠ .following)
    (src : (s.channel c).source = .clip id cur) : angleNext b s = angleNextOnClip c id cur .command s := by
  rw [angleNext_eq hc free, angleNextOn, if_neg idle, src]

theorem angleNext_train {b : Byte} {c : ChannelId} {s : State} {x : TrainId} (hc : b.toNat = c.val)
    (idle : (s.channel c).state ≠ .idle) (free : (s.channel c).state ≠ .following)
    (src : (s.channel c).source = .train x) : angleNext b s = angleNextOnTrain c x .command s := by
  rw [angleNext_eq hc free, angleNextOn, if_neg idle, src]

/-- Settles O29: the checks in their order, and the normal form of a switch. -/
theorem angleAndAngleNext : Obligations.AngleAndAngleNext := by
  refine ⟨fun tag a c u s hc ht => ⟨fun bad => ?_, fun ok idle => ?_, fun x ok idle free src => ?_,
    fun id cur old ok idle free src current => ⟨fun absent => ?_, fun g hg present => ?_⟩⟩,
    fun tag b c u s hc ht => ⟨fun idle => ?_, fun id cur old k idle free src clip current => ⟨fun passed => ?_,
      fun pre i post g h order passed hg present found low high => ?_⟩,
      fun x order idle free src group => ⟨fun passed => ?_, fun pre y post edge oldest split passed he ho => ?_⟩⟩⟩
  · refine turnedAway_of_refuse (f := angle) rfl ht ((onChannel_of_named hc _ s).trans ?_)
    rw [angleIndexOf_eq_none bad]
  · exact turnedAway_of_refuse (f := angle) rfl ht ((angle_eq hc ok (by simp [idle])).trans (if_pos idle))
  · refine turnedAway_of_refuse (f := angle) rfl ht ((angle_eq hc ok free).trans ?_)
    rw [angleOn, if_neg idle, src]
  · exact turnedAway_of_refuse (f := angle) rfl ht
      ((angle_eq hc ok free).trans (angleOn_absent idle src current absent))
  · obtain ⟨same, fails, switches⟩ := angleOn_present idle src current hg present
    refine ⟨fun h => accepted_of_done (f := angle) rfl ht ((angle_eq hc ok free).trans (same h)),
      fun h lost => turnedAway_of_refuse (f := angle) rfl ht ((angle_eq hc ok free).trans (fails _ h ?_)),
      fun h lost => turnedAway_of_refuse (f := angle) rfl ht ((angle_eq hc ok free).trans (fails _ h ?_)),
      fun h other found => ⟨fun out => turnedAway_of_refuse (f := angle) rfl ht
        ((angle_eq hc ok free).trans (fails _ other (angleHead_outside found out))), fun low high => ?_⟩⟩
    · rw [State.angleHead, lost]
    · rw [State.angleHead, lost]
    · have done := (angle_eq hc ok free).trans (switches h other (angleHead_ok.mpr ⟨found, low, high⟩))
      rw [switchAngle_eq_played] at done
      refine ⟨_, accepted_of_done (f := angle) rfl ht done, played_channelFrame, played_channel_self ..,
        played_queue_self .., played_runLog_of_reports _, ?_⟩
      have moved : ¬(s.channel c).source = .clip id a.value.toNat := by
        rw [src]
        simp only [Source.clip.injEq, not_and]
        exact fun _ => Ne.symm other
      have train : s.sourceTrain (.clip id a.value.toNat) = some g.train := by simp [State.sourceTrain, hg]
      rw [played_reports, noted_reports, State.changeReport, if_neg fun h => moved h.2, train]
      rfl
  · exact turnedAway_of_refuse (f := angleNext) rfl ht
      ((angleNext_eq hc (by simp [idle])).trans (if_pos idle))
  · refine turnedAway_of_refuse (f := angleNext) rfl ht ((angleNext_clip hc idle free src).trans ?_)
    rw [(angleNextOnClip_eq clip current).1 (firstTaken_none (fun i hi => tryAngle_none (passed i hi)) 0),
      nextRefusal_eq]
    rfl
  · have taken := firstTaken_some (post := post) (fun j hj => tryAngle_none (passed j hj))
      (tryAngle_some hg present (angleHead_ok.mpr ⟨found, low, high⟩)) 0
    rw [Nat.zero_add, ← order] at taken
    have done := (angleNext_clip hc idle free src).trans ((angleNextOnClip_eq clip current).2 _ _ _ _ taken)
    rw [switchAngle_eq_played] at done
    exact ⟨_, accepted_of_done (f := angleNext) rfl ht done, played_channelFrame, played_change.1, played_change.2,
      played_channel_self .., played_queue_self ..⟩
  · refine turnedAway_of_refuse (f := angleNext) rfl ht ((angleNext_train hc idle free src).trans ?_)
    rw [(angleNextOnTrain_eq (trainsAfter_eq group)).1 (firstTaken_none (fun y hy => tryTrain_none (passed y hy)) 0),
      nextRefusal_eq]
  · have done : ∀ h, s.tryTrain (s.channel c) x y = some (y, h) → ∃ t,
        Accepted (.angleNext tag (.fields b)) 0x31 tag u t (.trainNext (t.transport c) y pre.length) ∧
        s.channelFrame t c ∧ t.queue c = s.queue c ∧ t.runLog = s.runLog ∧
        s.raised t (s.changeReport c (t.channel c) .command) ∧
        t.channel c = { s.channel c with source := .train y, head := h, edgeHold := false } := by
      intro h taken
      have first := firstTaken_some (post := post) (fun z hz => tryTrain_none (passed z hz)) taken 0
      rw [Nat.zero_add, ← split] at first
      have done := (angleNext_train hc idle free src).trans
        ((angleNextOnTrain_eq (trainsAfter_eq group)).2 _ _ _ first)
      rw [switchTrain_eq_played] at done
      exact ⟨_, accepted_of_done (f := angleNext) rfl ht done, played_channelFrame, played_queue_self ..,
        played_change.1, played_change.2, played_channel_self ..⟩
    obtain ⟨mapped, placed⟩ := tryTrain_some (ch := s.channel c) (x := x) he ho
    exact ⟨fun h live found => done h (mapped h live found), fun live => done _ (placed live)⟩

/-! ## Gangs (R155 to R157, R162) -/

section gang

variable {s : State} {l f : ChannelId}

/-- A channel's record written before or after an operation on another channel. -/
theorem played_setChannel (ne : l ≠ f) (r new : Channel) (q : PlayQueue) (g : ArmState → ArmState)
    (notes : List Note) (free : Nat) :
    (s.played f new q g notes free).setChannel l r = (s.setChannel l r).played f new q g notes free := by
  have values : f.val ≠ l.val := fun e => ne (Fin.ext e.symm)
  have panels : ((s.setChannel l r).rearm f g).panels = (s.rearm f g).panels := rearm_congr f g rfl
  obtain ⟨log, reports⟩ := noted_congr (s := s) (t := s.setChannel l r) notes rfl rfl rfl
  unfold State.played
  simp only [panels, log, reports]
  simp [State.setChannel, Vector.set_comm _ _ values]

theorem mapFrom_cut (c : ChannelId) (o : RunOutcome) (d : ChannelId) (x : TrainId) :
    (s.cutProgramme c o).mapFrom d x = s.mapFrom d x := by
  unfold State.mapFrom
  rw [cutProgramme_channel, cutProgramme_eq_played]
  rfl

/-- The follower's record after a GANG (R157). -/
def State.ganging (s : State) (f : ChannelId) (x : TrainId) (head : Nat) (w : FollowState) : Channel :=
  { s.channel f with
    state := .following, source := .train x, head := head, speed := 0, target := 0, bounce := none
    edgeHold := false, jogAcc := 0, role := .follower w }

/-- The report of a leader that cannot be followed (R157, step 5). -/
def lostReport (l f : ChannelId) (x : TrainId) (head : Nat) (held : Option HoldReason) : List ReportBody :=
  held.toList.map fun r => .followLost f l x (head / 1200) r

/-- An accepted GANG: the leader's role, and one operation on the follower (R157). -/
theorem gang_eq_played (ne : l ≠ f) (x : TrainId) (edge : Nat) : s.gang l f x edge =
    let g := s.gangHead l f x edge
    let new := s.ganging f x g.1 (followOf g.2)
    (s.setRole l .leader).played f new { s.queue f with session := none, playing := false }
      (leaveArm (s.channel f).state new.state)
      (s.cutNotes f .cutShort new .gang ++ (lostReport l f x g.1 g.2).map .report) s.freeReads := by
  have head : (s.cutProgramme f .cutShort).gangHead l f x edge = s.gangHead l f x edge := by
    unfold State.gangHead
    rw [mapFrom_cut, mapFrom_cut]
  have role : (s.cutProgramme f .cutShort).setRole l .leader = (s.setRole l .leader).cutProgramme f .cutShort := by
    unfold State.setRole
    rw [cutProgramme_channel, cutProgramme_eq_played, played_setChannel ne, cutProgramme_eq_played,
      setChannel_channel_ne _ _ _ ne.symm]
    rfl
  have same : (s.setRole l .leader).channel f = s.channel f := setChannel_channel_ne _ _ _ ne.symm
  have notes : ∀ new cause, (s.setRole l .leader).cutNotes f .cutShort new cause = s.cutNotes f .cutShort new cause := by
    intro new cause
    unfold State.cutNotes State.changeReport
    rw [same]
    rfl
  unfold State.gang
  dsimp only
  rw [head, role, cutProgramme_commit, cutProgramme_channel, same, notes]
  rcases hg : s.gangHead l f x edge with ⟨head, held⟩
  cases held with
  | none => simp [lostReport, State.ganging, Channel.leave, Channel.enter]; rfl
  | some reason =>
    dsimp only
    rw [raise_eq_played _ f]
    simp [lostReport, State.ganging, Channel.leave, Channel.enter, Config.sfu]
    rfl

/-- UNGANG of a ganged pair: the leader's role, and one operation on the follower (R162). -/
theorem ungang_eq_played (ne : l ≠ f) : s.ungang l f =
    let new : Channel := { s.channel f with state := .cued, speed := 0, target := 0, role := .noGang }
    (s.setRole l .noGang).played f (new.leave (s.channel f)) (s.queue f) (leaveArm (s.channel f).state .cued)
      ((s.changeReport f new .gang).map .report) s.freeReads := by
  have same : (s.setRole l .noGang).channel f = s.channel f := setChannel_channel_ne _ _ _ ne.symm
  unfold State.ungang
  dsimp only
  rw [commit_eq_played, same]
  unfold State.changeReport
  rw [same]
  rfl

theorem gangHead_eq (x : TrainId) (edge : Nat) :
    (∀ h, s.mapFrom l x = .ok h → s.gangHead l f x edge = (h, none)) ∧
    (∀ r h, s.mapFrom l x = .error r → s.mapFrom f x = .ok h → s.gangHead l f x edge = (h, some r)) ∧
    (∀ r q, s.mapFrom l x = .error r → s.mapFrom f x = .error q →
      s.gangHead l f x edge = (edge * 1200, some r)) := by
  refine ⟨fun h ok => ?_, fun r h lost ok => ?_, fun r q lost lost' => ?_⟩ <;> unfold State.gangHead
  · rw [ok]
  · rw [lost, ok]
  · rw [lost, lost']; rfl

theorem pair_ne (h : (l, f) ∈ [((0 : ChannelId), (1 : ChannelId)), (2, 3), (4, 5)]) : followerOf l = some f ∧ l ≠ f := by
  revert l f
  decide

theorem pairOf_eq {c : ChannelId} (h : (l, f) ∈ [((0 : ChannelId), (1 : ChannelId)), (2, 3), (4, 5)])
    (hc : c = l ∨ c = f) : pairOf c = (l, f) := by
  revert l f c
  decide

theorem gang_done {a : ChannelTrainArgs} {x : TrainId} {edge : Nat} (hc : a.channel.toNat = l.val)
    (hx : a.train.toNat = x.val) (pair : followerOf l = some f) (he : (s.train x).recordEdge = some edge) :
    gang a s = .done (s.gang l f x edge)
      (.gang ((s.gang l f x edge).transport f) ((s.gang l f x edge).channel f).role.follow) := by
  refine (onChannel_of_named hc _ s).trans ?_
  rw [trainOf_eq_some hx]
  dsimp only
  rw [pair]
  dsimp only
  unfold gangOn
  rw [he]

/-- A reason to hold and a tracking leader exclude each other. -/
theorem gangHead_held (x : TrainId) (edge : Nat) :
    (∀ h, s.mapFrom l x = .ok h → (s.gangHead l f x edge).2 = none) ∧
    (∀ r, s.mapFrom l x = .error r → (s.gangHead l f x edge).2 = some r) := by
  obtain ⟨tracks, holds, rests⟩ := gangHead_eq (s := s) (l := l) (f := f) x edge
  refine ⟨fun h ok => by rw [tracks h ok], fun r lost => ?_⟩
  cases own : s.mapFrom f x with
  | ok h => rw [holds r h lost own]
  | error q => rw [rests r q lost own]

end gang

/-- Settles O30: GANG and UNGANG as a role written on the leader and one operation on the follower. -/
theorem gangAndUngang : Obligations.GangAndUngang := by
  refine ⟨fun tag a c u s hc ht => ⟨fun bad => ?_, fun ok second => ?_, fun x f hx pair => ⟨fun empty => ?_,
    fun edge he => ?_⟩⟩, fun tag b c l f u s hb pair hc ht => ⟨fun apart => ?_, fun w lead role st => ?_⟩⟩
  · refine turnedAway_of_refuse (f := gang) rfl ht ((onChannel_of_named hc _ s).trans ?_)
    rw [trainOf_eq_none bad]
  · refine turnedAway_of_refuse (f := gang) rfl ht ((onChannel_of_named hc _ s).trans ?_)
    have none : followerOf c = none := by
      clear hc
      revert second
      revert c
      decide
    rw [trainOf_eq_some (x := ⟨a.train.toNat, ok⟩) rfl, none]
  · refine turnedAway_of_refuse (f := gang) rfl ht ((onChannel_of_named hc _ s).trans ?_)
    rw [trainOf_eq_some hx, (pair_ne pair).1]
    dsimp only
    unfold gangOn
    rw [empty]
  · obtain ⟨follower, ne⟩ := pair_ne pair
    have done := gang_done (s := s) hc hx follower he
    obtain ⟨tracks, holds, rests⟩ := gangHead_eq (s := s) (l := c) (f := f) x edge
    obtain ⟨known, unknown⟩ := gangHead_held (s := s) (l := c) (f := f) x edge
    have leader : (s.setRole c .leader).channel f = s.channel f := setChannel_channel_ne _ _ _ ne.symm
    rw [gang_eq_played ne] at done
    generalize s.gangHead c f x edge = g at done tracks holds rests known unknown
    simp only [played_channel_self] at done
    have notes : bodiesOf s.runLog.entries.length (s.cutNotes f .cutShort (s.ganging f x g.1 (followOf g.2)) .gang ++
        (lostReport c f x g.1 g.2).map .report) = appendReports s.runLog.entries.length (s.endedOn .cutShort [f]) ++
        (s.changeReport f (s.ganging f x g.1 (followOf g.2)) .gang ++ lostReport c f x g.1 g.2) := by
      unfold State.cutNotes
      rw [List.append_assoc, ← List.map_append, bodiesOf_entries_reports]
    have entries : entriesOf (s.cutNotes f .cutShort (s.ganging f x g.1 (followOf g.2)) .gang ++
        (lostReport c f x g.1 g.2).map .report) = s.endedOn .cutShort [f] := by
      rw [entriesOf_append, entriesOf_cutNotes, entriesOf_reports, List.append_nil]
    have logged : s.runLog.entries.length ≤ 256 → _ := fun size =>
      played_logged (s := s.setRole c .leader) (c := f) (new := s.ganging f x g.1 (followOf g.2))
        (q := { s.queue f with session := none, playing := false })
        (f := leaveArm (s.channel f).state (s.ganging f x g.1 (followOf g.2)).state)
        (notes := s.cutNotes f .cutShort (s.ganging f x g.1 (followOf g.2)) .gang ++
          (lostReport c f x g.1 g.2).map .report) (free := s.freeReads) size
    rw [entries] at logged
    refine ⟨_, g.1, followOf g.2, accepted_of_done (f := gang) rfl ht done, played_channel_self .., ?_,
      fun h ok => by rw [tracks h ok]; exact ⟨rfl, rfl⟩, fun r h lost ok => by rw [holds r h lost ok]; exact ⟨rfl, rfl⟩,
      fun r q lost lost' => by rw [rests r q lost lost']; exact ⟨rfl, rfl⟩, ⟨?_, ?_, fun quiet => ?_, logged⟩, ?_, ?_,
      fun size => ⟨logged size, lostReport c f x g.1 g.2, fun h ok => by rw [known h ok]; rfl,
        fun r lost => by rw [unknown r lost]; rfl, ?_⟩, fun d hl hf => ?_, fun d hf => ?_, ⟨rfl, rfl, rfl, rfl⟩,
      ⟨rfl, rfl⟩, ⟨rfl, rfl⟩, ⟨rfl, rfl, rfl, rfl, rfl, rfl, rfl⟩, rfl⟩
    · rw [played_channel_ne _ _ _ _ _ _ _ ne]; exact setChannel_channel_self ..
    · rw [played_queue_self]
    · rw [played_queue_self]
    · refine noted_runLog_of_reports ?_
      rw [entries, endedOn_none quiet]
    · rw [played_queue_self]
    · have left := played_panelsLeft (s := s.setRole c .leader) (c := f) (new := s.ganging f x g.1 (followOf g.2))
        (q := { s.queue f with session := none, playing := false })
        (notes := s.cutNotes f .cutShort (s.ganging f x g.1 (followOf g.2)) .gang ++
          (lostReport c f x g.1 g.2).map .report) (free := s.freeReads)
      unfold State.panelsLeft at left ⊢
      rw [leader] at left
      exact left
    · have raised := played_raised (s := s.setRole c .leader) (c := f) (new := s.ganging f x g.1 (followOf g.2))
        (q := { s.queue f with session := none, playing := false })
        (f := leaveArm (s.channel f).state (s.ganging f x g.1 (followOf g.2)).state)
        (notes := s.cutNotes f .cutShort (s.ganging f x g.1 (followOf g.2)) .gang ++
          (lostReport c f x g.1 g.2).map .report) (free := s.freeReads) size
      unfold State.raised at raised ⊢
      rw [show (s.setRole c .leader).runLog = s.runLog from rfl, notes,
        raises_reports_congr (s := s) (t := s.setRole c .leader) _ rfl rfl] at raised
      rw [List.append_assoc]
      exact raised
    · rw [played_channel_ne _ _ _ _ _ _ _ hf]; exact setChannel_channel_ne _ _ _ hl
    · rw [played_queue_ne _ _ _ _ _ _ _ hf]; rfl
  · refine accepted_of_done (f := ungang) rfl ht ((onChannel_of_named hb _ s).trans ?_)
    have off : s.ganged l f = false := by
      unfold State.ganged
      split
      · next hl hf =>
        rcases apart with h | h
        · exact absurd hl h
        · exact absurd hf (h _)
      · rfl
    simp [pairOf_eq pair hc, off]
  · have ne := (pair_ne pair).2
    have on : s.ganged l f = true := by
      unfold State.ganged
      rw [lead, role]
    have done : ungang b s = .done (s.ungang l f) (.transport ((s.ungang l f).transport f)) := by
      refine (onChannel_of_named hb _ s).trans ?_
      simp [pairOf_eq pair hc, on]
    rw [ungang_eq_played ne] at done
    have still : leaveArm (s.channel f).state .cued = id := leaveArm_of_ne (by simp [st])
    rw [still] at done
    refine ⟨_, accepted_of_done (f := ungang) rfl ht done, ?_, ?_, fun d hl hf => ?_, ?_, played_runLog_of_reports _, ?_,
      ⟨rfl, rfl, rfl, rfl⟩, ⟨rfl, rfl⟩, ⟨rfl, rfl⟩, ⟨rfl, rfl, rfl, rfl, rfl, rfl, rfl⟩, ?_⟩
    · rw [played_channel_self]; simp [Channel.leave, st]
    · rw [played_channel_ne _ _ _ _ _ _ _ ne]; exact setChannel_channel_self ..
    · rw [played_channel_ne _ _ _ _ _ _ _ hf]; exact setChannel_channel_ne _ _ _ hl
    · simp [State.played, State.queue, State.setRole, State.setChannel]
    · show ((s.setRole l .noGang).rearm f id).panels = s.panels
      rw [rearm_id]
      rfl
    · rw [played_reports, noted_reports, State.changeReport, if_neg (by simp [st]), st]
      exact raises_reports_congr [_] rfl rfl

end Sys2Proof.Machine
end

section
/-! Operator panels (spec 05): the binding table, shuttle curves, lever and jog records, the dead-man, and keys. -/

namespace Sys2Proof.Machine

/-! ## Binding (R97, R98) -/

/-- A panel whose binding has been changed at a time (R98). -/
def Panel.rebound (r : Panel) (b : Option ChannelId) (now : Nat) : Panel :=
  { r with binding := b, arm := .disarmed, pendingEcho := none, lastRecord := now }

theorem rebind_eq (s : State) (p : PanelId) (b : Option ChannelId) :
    s.rebind p b = s.setPanel p ((s.panel p).rebound b s.time) := rfl

theorem panelOf_eq_some {b : Byte} {p : PanelId} (h : b.toNat = p.val) : panelOf b = some p := by
  simp [panelOf, h]

theorem panelOf_eq_none {b : Byte} (h : 4 ≤ b.toNat) : panelOf b = none := by
  simp [panelOf, h]

theorem onPanel_of_named {b : Byte} {p : PanelId} (h : b.toNat = p.val) (f : PanelId → State → Verdict) (s : State) :
    onPanel b f s = f p s := by
  unfold onPanel
  rw [panelOf_eq_some h]

theorem onPanel_of_unnamed {b : Byte} (h : 4 ≤ b.toNat) (f : PanelId → State → Verdict) (s : State) :
    onPanel b f s = .refuse .badValue := by
  unfold onPanel
  rw [panelOf_eq_none h]

theorem bindChannelOf_eq_some {b : Byte} {c : ChannelId} (h : b.toNat = c.val) : bindChannelOf b = some (some c) := by
  have small := c.isLt
  unfold bindChannelOf
  rw [if_neg, channelOf_eq_some h]
  · rfl
  · rintro rfl
    have : (0xFF : Byte).toNat = 255 := rfl
    omega

theorem bindChannelOf_eq_none {b : Byte} (h : 6 ≤ b.toNat) (named : b ≠ 0xFF) : bindChannelOf b = none := by
  unfold bindChannelOf
  rw [if_neg named, channelOf_eq_none h]
  rfl

/-- The panel displaced is another panel bound to the channel. -/
theorem displacedBy_some {s : State} {p q : PanelId} {b : Option ChannelId} (h : s.displacedBy p b = some q) :
    q ≠ p ∧ b ≠ none ∧ (s.panel q).binding = b := by
  cases b with
  | none => cases h
  | some c => simpa using List.find?_some h

/-- Where no channel is bound to two panels, another panel bound to the channel is the one displaced. -/
theorem displacedBy_eq {s : State} {p q : PanelId} {b : Option ChannelId} (law : s.tableLaw) (ne : q ≠ p)
    (bound : b ≠ none) (h : (s.panel q).binding = b) : s.displacedBy p b = some q := by
  cases b with
  | none => exact absurd rfl bound
  | some c =>
    cases found : s.displacedBy p (some c) with
    | none => exact absurd (by simp [ne, h]) (List.find?_eq_none.mp found q (mem_allPanels q))
    | some r =>
      obtain ⟨-, -, hr⟩ := displacedBy_some found
      rw [law.2.2.2 r q c hr h]

/-- The state in which the displaced panel has lost its binding, and panel p is bound anew (R97). -/
def State.bound (s : State) (p : PanelId) (b : Option ChannelId) : State :=
  match s.displacedBy p b with
  | some q => (s.rebind q none).rebind p b
  | none => s.rebind p b

theorem bindPanel_done {s : State} {p : PanelId} {b : Option ChannelId}
    (free : ∀ c, b = some c → (s.channel c).state ≠ .following) :
    bindPanel p b s = .done (s.bound p b) (.bind (s.panel p).binding (s.displacedBy p b)) := by
  have open' : ¬(b.map fun c => (s.channel c).state) = some .following := by
    cases b with
    | none => simp
    | some c => simpa using free c rfl
  unfold bindPanel State.bound
  rw [if_neg open']
  cases s.displacedBy p b <;> rfl

theorem bound_panels (s : State) (p : PanelId) (b : Option ChannelId) : { s.bound p b with panels := s.panels } = s := by
  unfold State.bound
  cases s.displacedBy p b <;> rfl

/-- A BIND rebinds panel p, unbinds the displaced panel, and leaves the others. -/
theorem bound_panel (s : State) (p q : PanelId) (b : Option ChannelId) : (s.bound p b).panel q =
    if q = p then (s.panel p).rebound b s.time
    else if s.displacedBy p b = some q then (s.panel q).rebound none s.time else s.panel q := by
  unfold State.bound
  cases found : s.displacedBy p b with
  | none =>
    rw [rebind_eq]
    by_cases same : q = p
    · subst same; simp
    · simp [same, setPanel_panel_ne]
  | some r =>
    obtain ⟨ne, -, -⟩ := displacedBy_some found
    simp only [rebind_eq]
    by_cases same : q = p
    · subst same
      rw [if_pos rfl, setPanel_panel_self, setPanel_panel_ne _ _ _ ne.symm]
      rfl
    · rw [if_neg same, setPanel_panel_ne _ _ _ same]
      by_cases other : q = r
      · subst other; simp
      · rw [setPanel_panel_ne _ _ _ other, if_neg fun e => other (Option.some.inj e).symm]

/-! ## Shuttle curves (R99, R100) -/

theorem curveRises_iff {ps : List (Int × Int)} : curveRises ps = true ↔ ps.Pairwise fun m n => m.1 < n.1 ∧ m.2 ≤ n.2 := by
  induction ps with
  | nil => simp [curveRises]
  | cons p rest ih =>
    cases rest with
    | nil => simp [curveRises]
    | cons q more =>
      have step : curveRises (p :: q :: more) = (decide (p.1 < q.1 ∧ p.2 ≤ q.2) && curveRises (q :: more)) := rfl
      rw [step, Bool.and_eq_true, decide_eq_true_eq, ih, List.pairwise_cons (a := p)]
      refine and_congr_left fun rises => ⟨fun above m hm => ?_, fun h => h q List.mem_cons_self⟩
      rcases List.mem_cons.mp hm with rfl | hm
      · exact above
      · obtain ⟨lever, speed⟩ := (List.pairwise_cons.mp rises).1 m hm
        exact ⟨above.1.trans lever, above.2.trans speed⟩

theorem curveValid_iff {ps : List (Int × Int)} : curveValid ps = true ↔
    2 ≤ ps.length ∧ ps.length ≤ 16 ∧ ps.head? = some (0, 0) ∧ ps.getLast?.map (·.1) = some 1000 ∧
      ps.Pairwise (fun m n => m.1 < n.1 ∧ m.2 ≤ n.2) ∧ ∀ m ∈ ps, 0 ≤ m.2 ∧ m.2 ≤ 38400 := by
  unfold curveValid
  rw [Bool.and_eq_true, Bool.and_eq_true, decide_eq_true_eq, curveRises_iff, List.all_eq_true]
  simp only [decide_eq_true_eq, and_assoc]
  rfl

/-- An accepted list of points, as the panel keeps it. -/
def keptCurve (ps : List CurvePointField) : List CurvePoint :=
  ps.map fun q => { lever := q.lever.toNat, speed := q.speed.toNat }

theorem toNat_of_toInt_nonneg {w : Nat} {x : BitVec w} (h : 0 ≤ x.toInt) : (x.toNat : Int) = x.toInt := by
  have := x.isLt
  rw [BitVec.toInt_eq_toNat_cond] at h ⊢
  split at h
  · next small => rw [if_pos small]
  · omega

/-- The levers of an accepted list are not negative, so that its points are kept as they are. -/
theorem keptCurve_eq {ps : List CurvePointField} (good : curveValid (curvePoints ps) = true) :
    (keptCurve ps).map (fun q => ((q.lever : Int), (q.speed : Int))) = ps.map fun q => (q.lever.toInt, q.speed.toInt) := by
  obtain ⟨-, -, first, -, rises, range⟩ := curveValid_iff.mp good
  have nonneg : ∀ m ∈ curvePoints ps, 0 ≤ m.1 := by
    rcases h : curvePoints ps with _ | ⟨p, rest⟩
    · simp
    · rw [h] at first rises
      obtain rfl := Option.some.inj first
      intro m hm
      rcases List.mem_cons.mp hm with rfl | hm
      · exact le_rfl
      · exact ((List.pairwise_cons.mp rises).1 m hm).1.le
  unfold keptCurve
  rw [List.map_map]
  refine List.map_congr_left fun q hq => ?_
  have mem : (q.lever.toInt, q.speed.toInt) ∈ curvePoints ps := List.mem_map_of_mem hq
  exact Prod.ext (toNat_of_toInt_nonneg (nonneg _ mem)) (toNat_of_toInt_nonneg (range _ mem).1)

/-- On a rising curve the lever takes the value of the segment it lies in; where two segments meet they agree
(R100). -/
theorem curveAt_eq {pre post : List CurvePoint} {p q : CurvePoint} {l : Nat}
    (rises : (pre ++ p :: q :: post).Pairwise fun m n => m.lever < n.lever ∧ m.speed ≤ n.speed)
    (low : p.lever ≤ l) (high : l ≤ q.lever) : curveAt (pre ++ p :: q :: post) l =
      p.speed + (q.speed - p.speed) * (l - p.lever) / (q.lever - p.lever) := by
  induction pre with
  | nil => exact if_pos ⟨low, high⟩
  | cons a rest ih =>
    obtain ⟨below, later⟩ := List.pairwise_cons.mp rises
    cases rest with
    | nil =>
      obtain ⟨lever, speed⟩ := below p (by simp)
      by_cases here : a.lever ≤ l ∧ l ≤ p.lever
      · have at' : l = p.lever := le_antisymm here.2 low
        subst at'
        refine (if_pos here).trans ?_
        rw [Nat.mul_div_cancel _ (by omega)]
        simp
        omega
      · exact (if_neg here).trans (ih later)
    | cons b more =>
      have above := ((List.pairwise_cons.mp later).1 p (by simp)).1
      exact (if_neg fun here => by omega).trans (ih later)

theorem curveAt_zero {curve : List CurvePoint} (first : curve.head? = some ⟨0, 0⟩) : curveAt curve 0 = 0 := by
  rcases curve with _ | ⟨a, _ | ⟨b, rest⟩⟩
  · rfl
  · rfl
  · obtain rfl := Option.some.inj first
    exact (if_pos ⟨le_rfl, Nat.zero_le _⟩).trans (by simp)

theorem leverSpeed_neg {curve : List CurvePoint} {l : Nat} (zero : curveAt curve 0 = 0) :
    leverSpeed curve (-l) = -leverSpeed curve l := by
  unfold leverSpeed
  rcases Nat.eq_zero_or_pos l with rfl | pos
  · simp [zero]
  · rw [if_neg (by omega), if_pos (by omega)]
    simp

/-- A segment's values lie at or below the speeds of its ends. -/
theorem curveAt_le {curve : List CurvePoint} {m : Nat} (h : ∀ q ∈ curve, q.speed ≤ m) (l : Nat) :
    curveAt curve l ≤ m := by
  induction curve with
  | nil => exact Nat.zero_le _
  | cons a rest ih =>
    cases rest with
    | nil => exact Nat.zero_le _
    | cons b more =>
      unfold curveAt
      split
      · next within =>
        have ha := h a (by simp)
        have hb := h b (by simp)
        have part : (b.speed - a.speed) * (l - a.lever) / (b.lever - a.lever) ≤ b.speed - a.speed :=
          Nat.div_le_of_le_mul (by rw [Nat.mul_comm]; exact Nat.mul_le_mul_right _ (by omega))
        omega
      · exact ih fun q hq => h q (List.mem_cons_of_mem _ hq)

/-- The lever's speed lies in the range of speeds. -/
theorem leverSpeed_range {s : State} (law : s.speedLaw) (p : PanelId) (l : Int) :
    inSpeedRange (leverSpeed (s.panel p).curve l) := by
  have bound := fun n => curveAt_le ((law.2.2.2 p).2.2.2) n
  unfold leverSpeed
  split
  · have := bound l.toNat
    simp only [inSpeedRange]
    omega
  · have := bound (-l).toNat
    simp only [inSpeedRange]
    omega

/-- Settles O31: BIND on the panels it changes, the curve rules as the model checks them, and the lever's segment. -/
theorem bindAndPanelSettings : Obligations.BindAndPanelSettings := by
  refine ⟨fun tag a u s ht => ⟨fun bad => ?_, fun c hp hc following => ?_, fun p b hp law named => ?_⟩,
    ⟨fun tag a u s ht => ⟨fun bad => ?_, fun p hp => ⟨fun bad => ?_, fun good => ?_⟩⟩,
      fun tag b u s ht => ⟨fun bad => ?_, fun p hp => ?_⟩,
      fun tag a u s ht => ⟨fun bad => ?_, fun p hp low high => ?_⟩⟩,
    fun curve pre post p q l split rises first low high => ?_⟩
  · refine turnedAway_of_refuse (f := bind) rfl ht ?_
    unfold bind
    rcases bad with bad | ⟨bad, named⟩
    · rw [panelOf_eq_none bad]
    · rw [bindChannelOf_eq_none bad named]
      cases panelOf a.panel <;> rfl
  · refine turnedAway_of_refuse (f := bind) rfl ht ?_
    unfold bind
    rw [panelOf_eq_some (p := ⟨a.panel.toNat, hp⟩) rfl, bindChannelOf_eq_some hc]
    exact if_pos (congrArg some following)
  · have field : bindChannelOf a.channel = some b := by
      rcases named with ⟨all, rfl⟩ | ⟨c, hc, rfl, -⟩
      · exact if_pos all
      · exact bindChannelOf_eq_some hc
    have free : ∀ c, b = some c → (s.channel c).state ≠ .following := by
      rcases named with ⟨-, rfl⟩ | ⟨c, -, rfl, free⟩
      · simp
      · rintro d rfl'
        exact Option.some.inj rfl' ▸ free
    have done : bind a s = .done (s.bound p b) (.bind (s.panel p).binding (s.displacedBy p b)) := by
      unfold bind
      rw [panelOf_eq_some hp, field]
      exact bindPanel_done free
    refine ⟨s.bound p b, s.displacedBy p b, accepted_of_done (f := bind) rfl ht done, ?_, fun q ne bound same => ?_,
      fun q ne apart => ?_, bound_panels s p b⟩
    · rw [bound_panel, if_pos rfl]
      rfl
    · have found := displacedBy_eq law ne bound same
      refine ⟨found, ?_⟩
      rw [bound_panel, if_neg ne, if_pos found]
      rfl
    · have other : s.displacedBy p b ≠ some q := fun found => by
        obtain ⟨-, bound, same⟩ := displacedBy_some found
        exact apart.elim bound fun h => h same
      exact ⟨other, by rw [bound_panel, if_neg ne, if_neg other]⟩
  · exact turnedAway_of_refuse (f := setCurve) rfl ht (onPanel_of_unnamed bad ..)
  · exact turnedAway_of_refuse (f := setCurve) rfl ht
      ((onPanel_of_named hp _ s).trans (if_neg (mt curveValid_iff.mp bad)))
  · have valid := curveValid_iff.mpr good
    exact ⟨keptCurve a.points, keptCurve_eq valid, accepted_of_done (f := setCurve) rfl ht
      ((onPanel_of_named hp _ s).trans (if_pos valid))⟩
  · exact turnedAway_of_refuse (f := queryCurve) rfl ht (onPanel_of_unnamed bad ..)
  · exact accepted_of_done (f := queryCurve) rfl ht (onPanel_of_named hp _ s)
  · refine turnedAway_of_refuse (f := setSilence) rfl ht ?_
    by_cases named : 4 ≤ a.panel.toNat
    · exact onPanel_of_unnamed named ..
    · exact (onPanel_of_named (p := ⟨a.panel.toNat, by omega⟩) rfl _ s).trans (if_neg (by omega))
  · exact accepted_of_done (f := setSilence) rfl ht ((onPanel_of_named hp _ s).trans (if_pos ⟨low, high⟩))
  · subst split
    have value := curveAt_eq rises low high
    refine ⟨?_, leverSpeed_neg ?_⟩
    · rw [leverSpeed, if_pos (by omega), Int.toNat_natCast, value]
    · exact curveAt_zero first

end Sys2Proof.Machine
end

section
/-! Panel records (R96, R101 to R105, R108): lever, jog, keys and the dead-man. -/

namespace Sys2Proof.Machine

/-- A change of state that opens a session where none is open (R73). -/
theorem commit_openIfNone_eq_played (s : State) (c : ChannelId) (cause : Cause) (new : Channel) :
    (s.commit c cause new).openIfNone c = s.played c (new.leave (s.channel c))
      (if (s.queue c).session.isNone then s.opened new.source (s.queue c) else s.queue c)
      (leaveArm (s.channel c).state new.state) ((s.changeReport c new cause).map .report) s.freeReads := by
  unfold State.openIfNone
  rw [commit_eq_played, played_queue_self]
  split
  · rw [openSession_eq_played]
    simp
  · rfl

/-- The session open stays; where none is open one is opened on a clip's angle (R73, R174). -/
theorem openedIfNone_queue (s : State) (src : Source) (q : PlayQueue) :
    (∀ r, q.session = some r → (if q.session.isNone then s.opened src q else q) = q) ∧
    ∀ id i g, q.session = none → src = .clip id i → s.angleOf id i = some g →
      (if q.session.isNone then s.opened src q else q) = { q with session := some (freshSession id g.train) } := by
  refine ⟨fun r hr => by simp [hr], fun id i g hr hx hg => ?_⟩
  subst hx
  rw [hr]
  exact opened_clip s hg q

/-! ## The lever (R101 to R103) -/

section lever

variable {s : State} {c : ChannelId}

/-- The record of a channel a lever takes into SHUTTLE (R102). -/
def Channel.shuttled (ch : Channel) (v : Int) : Channel :=
  { ch with
    state := .shuttle, target := v, bounce := none, edgeHold := false, jogAcc := ch.jogLeft
    speed := if ch.state = .playing then ch.speed else if ch.state = .live then 1200 else 0 }

theorem leverOut_eq_played (v : Int) (st : (s.channel c).state ∈ [.cued, .playing, .jog, .live]) :
    s.leverOut c v =
    s.played c ((s.channel c).shuttled v)
      (if (s.queue c).session.isNone then s.opened (s.channel c).source (s.queue c) else s.queue c)
      (leaveArm (s.channel c).state ((s.channel c).shuttled v).state)
      ((s.changeReport c ((s.channel c).shuttled v) .lever).map .report) s.freeReads := by
  have commits : ∀ speed, speed = ((s.channel c).shuttled v).speed →
      (s.commit c .lever (Channel.enter
        { s.channel c with speed := speed, target := v, bounce := none, edgeHold := false } .shuttle)).openIfNone c =
      s.played c ((s.channel c).shuttled v)
        (if (s.queue c).session.isNone then s.opened (s.channel c).source (s.queue c) else s.queue c)
        (leaveArm (s.channel c).state ((s.channel c).shuttled v).state)
        ((s.changeReport c ((s.channel c).shuttled v) .lever).map .report) s.freeReads := by
    rintro _ rfl
    rw [commit_openIfNone_eq_played]
    simp [Channel.leave, Channel.enter, Channel.shuttled, Channel.jogLeft, State.changeReport]
  simp only [List.mem_cons, List.not_mem_nil, or_false] at st
  unfold State.leverOut
  extract_lets ch shuttling
  have now : ch.state = (s.channel c).state := rfl
  split
  · next h => simp [← now, h] at st
  · next h => simp [← now, h] at st
  · next h => simp [← now, h] at st
  · next h => exact commits 0 (by simp [Channel.shuttled, ← now, h])
  · next h => exact commits 0 (by simp [Channel.shuttled, ← now, h])
  · next h => exact commits _ (by simp [Channel.shuttled, ← now, h]; rfl)
  · next h => exact commits 1200 (by simp [Channel.shuttled, ← now, h])

/-- A lever out of neutral leaves IDLE and FOLLOWING, and sets the target of SHUTTLE (R102). -/
theorem leverOut_other (v : Int) :
    ((s.channel c).state = .idle ∨ (s.channel c).state = .following → s.leverOut c v = s) ∧
    ((s.channel c).state = .shuttle → s.leverOut c v = s.setChannel c { s.channel c with target := v }) := by
  refine ⟨fun st => ?_, fun st => ?_⟩
  · rcases st with st | st <;> simp only [State.leverOut, st]
  · simp only [State.leverOut, st]

theorem leverOut_plays {v : Int} (range : s.speedLaw → inSpeedRange v) : s.PlaysOn (s.leverOut c v) c := by
  obtain ⟨still, target⟩ := leverOut_other (s := s) (c := c) v
  by_cases quiet : (s.channel c).state = .idle ∨ (s.channel c).state = .following
  · rw [still quiet]
    exact playsOn_refl s c
  · by_cases shuttle : (s.channel c).state = .shuttle
    · rw [target shuttle]
      exact playsOn_setChannel (permits_of_change (fun _ => by simp [shuttle]) (by simp [shuttle]) rfl rfl
        (fun _ => by simp [Channel.speedsFit, shuttle]) (fun law => ⟨(law.1 c).1, range law⟩) rfl (.inr ⟨rfl, rfl⟩)
        (by simp))
    · have st : (s.channel c).state ∈ [.cued, .playing, .jog, .live] := by
        cases h : (s.channel c).state <;> simp_all
      rw [leverOut_eq_played v st]
      refine ⟨_, _, _, _, _, rfl, permits_of_change (fun _ h => quiet (.inr h)) (by simp [Channel.shuttled]) rfl rfl
        (fun _ => trivial) (fun law => ⟨?_, range law⟩) ?_ (.inr ⟨?_, rfl⟩)
        (told_of_changeReport _ fun b hb => List.mem_map_of_mem hb)⟩
      · unfold Channel.shuttled
        dsimp only
        split
        · exact (law.1 c).1
        · split <;> simp [inSpeedRange]
      · split <;> simp
      · split <;> simp

theorem leverNeutral_plays : s.PlaysOn (s.leverNeutral c) c := by
  unfold State.leverNeutral
  split
  · next st => exact setTarget_playsOn (.inr st) (by simp [inSpeedRange])
  · exact playsOn_refl s c

/-! ## The jog wheel (R104) -/

/-- The record of a channel a JOG takes into JOG (R104). -/
def Channel.jogEntered (ch : Channel) (n : Int) : Channel :=
  { ch with
    state := .jog, speed := 0, target := 0, bounce := none, edgeHold := false
    jogAcc := max (-1023) (min (ch.jogAcc + n) 1023) }

theorem jogChannel_eq_played (n : Int) (st : (s.channel c).state ∈ [.cued, .playing, .shuttle, .live]) :
    s.jogChannel c n = s.played c ((s.channel c).jogEntered n)
      (if (s.queue c).session.isNone then s.opened (s.channel c).source (s.queue c) else s.queue c)
      (leaveArm (s.channel c).state ((s.channel c).jogEntered n).state)
      ((s.changeReport c ((s.channel c).jogEntered n) .jog).map .report) s.freeReads := by
  have away : (s.channel c).state ≠ .jog := by rintro jog; simp [jog] at st
  have enters : s.jogChannel c n = (s.commit c .jog (Channel.enter
      { s.channel c with jogAcc := limitJog ((s.channel c).jogAcc + n), bounce := none, edgeHold := false }
      .jog)).openIfNone c := by
    simp only [List.mem_cons, List.not_mem_nil, or_false] at st
    unfold State.jogChannel
    extract_lets ch
    have now : ch.state = (s.channel c).state := rfl
    split
    · next h => simp [← now, h] at st
    · next h => simp [← now, h] at st
    · next h => exact absurd h away
    · rfl
  rw [enters, commit_openIfNone_eq_played]
  simp [Channel.leave, Channel.enter, Channel.jogEntered, State.changeReport, away, limitJog]

theorem jogChannel_other (n : Int) :
    ((s.channel c).state = .idle ∨ (s.channel c).state = .following → s.jogChannel c n = s) ∧
    ((s.channel c).state = .jog → s.jogChannel c n =
      s.setChannel c { s.channel c with jogAcc := max (-1023) (min ((s.channel c).jogAcc + n) 1023) }) := by
  refine ⟨fun st => ?_, fun st => ?_⟩
  · rcases st with st | st <;> simp only [State.jogChannel, st]
  · simp only [State.jogChannel, st]
    rfl

theorem jogChannel_plays {n : Int} : s.PlaysOn (s.jogChannel c n) c := by
  obtain ⟨still, counts⟩ := jogChannel_other (s := s) (c := c) n
  by_cases quiet : (s.channel c).state = .idle ∨ (s.channel c).state = .following
  · rw [still quiet]
    exact playsOn_refl s c
  · by_cases jog : (s.channel c).state = .jog
    · rw [counts jog]
      exact playsOn_setChannel (permits_of_kept rfl rfl rfl rfl rfl rfl)
    · have st : (s.channel c).state ∈ [.cued, .playing, .shuttle, .live] := by
        cases h : (s.channel c).state <;> simp_all
      rw [jogChannel_eq_played n st]
      refine ⟨_, _, _, _, _, rfl, permits_of_change (fun _ h => quiet (.inr h)) (by simp [Channel.jogEntered]) rfl rfl
        (fun _ => ⟨rfl, rfl⟩) (fun _ => by simp [Channel.jogEntered, inSpeedRange]) ?_ (.inr ⟨?_, rfl⟩)
        (told_of_changeReport _ fun b hb => List.mem_map_of_mem hb)⟩
      · split <;> simp
      · split <;> simp

end lever

/-- A JOG count is one from −127 to +127 but for the byte 0x80 (R104). -/
theorem jogCount_iff (n : Byte) : -127 ≤ n.toInt ↔ n ≠ 0x80 := by
  revert n
  decide

/-! ## Records of a bound panel -/

section records

variable {s : State} {p : PanelId} {c : ChannelId}

theorem touchPanel_panel : (s.touchPanel p).panel p = { s.panel p with lastRecord := s.time } :=
  setPanel_panel_self ..

theorem wheelRecord_unbound (l : Half) (free : (s.panel p).binding = none) : s.wheelRecord p l = s.touchPanel p := by
  unfold State.wheelRecord
  simp only [touchPanel_panel, free]

theorem wheelRecord_bound (l : Half) (bound : (s.panel p).binding = some c) : s.wheelRecord p l =
    (s.touchPanel p).lever p c (leverSpeed (s.panel p).curve (leverOf l)) := by
  unfold State.wheelRecord
  simp only [touchPanel_panel, bound]

theorem jogRecord_unbound (n : Byte) (free : (s.panel p).binding = none) : s.jogRecord p n = s.touchPanel p := by
  unfold State.jogRecord
  simp only [touchPanel_panel, free]

theorem jogRecord_bound (n : Byte) (bound : (s.panel p).binding = some c) : s.jogRecord p n =
    if n ≠ 0x80 then (s.touchPanel p).jogChannel c n.toInt else s.touchPanel p := by
  unfold State.jogRecord
  simp only [touchPanel_panel, bound, jogCount_iff]

/-- At neutral the lever arms the panel and stops SHUTTLE (R101, R103). -/
theorem lever_neutral : s.lever p c 0 =
    if (s.channel c).state = .shuttle then
      (s.setArm p .armed).setChannel c { s.channel c with target := 0 } else s.setArm p .armed := by
  have armed : (s.panel p).arm = .armed → s.setArm p .armed = s := fun h => by rw [← h, setArm_restore]
  unfold State.lever State.leverNeutral
  by_cases h : (s.panel p).arm = .armed
  · rw [if_pos h, if_pos rfl, armed h]
  · rw [if_neg h, if_pos rfl]
    rfl

theorem lever_out {v : Int} (arm : (s.panel p).arm = .armed) (out : v ≠ 0) : s.lever p c v = s.leverOut c v := by
  unfold State.lever
  rw [if_pos arm, if_neg out]

theorem lever_unarmed {v : Int} (arm : (s.panel p).arm ≠ .armed) (out : v ≠ 0) : s.lever p c v = s := by
  unfold State.lever
  rw [if_neg arm, if_neg out]

/-- A record acts on the device while the reset input is not asserted. -/
theorem leaves_powered {f : State → State} {i : Instr} {t : State} (row : exec i s = powered s f)
    (on : s.resetAsserted = false) (h : f s = t) : Leaves i s t := by
  subst h
  refine row.trans ?_
  unfold powered
  rw [on]
  rfl

theorem wheel_leaves {l : Half} {t : State} (on : s.resetAsserted = false) (h : s.wheelRecord p l = t) :
    Leaves (.wheel p l) s t := leaves_powered (f := fun s => s.wheelRecord p l) rfl on h

theorem jog_leaves {n : Byte} {t : State} (on : s.resetAsserted = false) (h : s.jogRecord p n = t) :
    Leaves (.jog p n) s t := leaves_powered (f := fun s => s.jogRecord p n) rfl on h

theorem key_leaves {code press : Byte} {t : State} (on : s.resetAsserted = false) (h : s.keyRecord p code press = t) :
    Leaves (.key p code press) s t := leaves_powered (f := fun s => s.keyRecord p code press) rfl on h

theorem deadMan_leaves {t : State} (on : s.resetAsserted = false) (h : s.deadMan p = t) :
    Leaves (.deadManExpiry p) s t := leaves_powered (f := fun s => s.deadMan p) rfl on h

/-- The dead-man is due on a bound panel that is not LOST, its channel in SHUTTLE, after its silence time (R108). -/
theorem deadMan_due (bound : (s.panel p).binding = some c) (armed : (s.panel p).arm ≠ .lost)
    (st : (s.channel c).state = .shuttle) (late : (s.panel p).silence < elapsed s.time (s.panel p).lastRecord) :
    s.deadMan p = ((s.setChannel c { s.channel c with target := 0 }).setPanel p
      { s.panel p with arm := .lost }).recordFault .panelLost (some p.val) := by
  have due : s.deadManDue p = true := by
    unfold State.deadManDue
    simp [bound, armed, st, late]
  unfold State.deadMan
  rw [bound]
  exact if_pos due

theorem deadMan_idle (h : (s.panel p).binding = none ∨ (s.panel p).arm = .lost ∨
    (∃ c, (s.panel p).binding = some c ∧ (s.channel c).state ≠ .shuttle) ∨
    elapsed s.time (s.panel p).lastRecord ≤ (s.panel p).silence) : s.deadMan p = s := by
  unfold State.deadMan
  cases bound : (s.panel p).binding with
  | none => rfl
  | some c =>
    refine if_neg ?_
    unfold State.deadManDue
    rcases h with none | lost | ⟨d, hd, away⟩ | early
    · rw [bound] at none; cases none
    · simp [bound, lost]
    · obtain rfl : c = d := Option.some.inj (bound ▸ hd)
      simp [bound, away]
    · simp [bound, Nat.not_lt.mpr early]

end records

/-- Settles O32: each record through the lever, the jog wheel or the dead-man, with its normal form. -/
theorem panelRecords : Obligations.PanelRecords := by
  refine ⟨fun p lever n s on => ⟨leaves_powered (f := fun s => s.touchPanel p) rfl on rfl,
     fun free => ⟨wheel_leaves on (wheelRecord_unbound _ free),
    jog_leaves on (jogRecord_unbound _ free)⟩, fun c bound => ?_⟩, fun p s on =>
    ⟨fun c bound armed st late => deadMan_leaves on (deadMan_due bound armed st late),
      fun h => deadMan_leaves on (deadMan_idle h)⟩⟩
  have wheel := wheelRecord_bound (s := s) lever bound
  have jog := jogRecord_bound (s := s) n bound
  have arm : ((s.touchPanel p).panel p).arm = (s.panel p).arm := by rw [touchPanel_panel]
  dsimp only
  refine ⟨fun unarmed out => ?_, fun neutral => ?_, fun armed out still => ?_, fun armed out st => ?_,
    fun armed out st => ?_, fun still => ?_, fun counts st => ?_, fun counts st => ?_⟩
  · exact wheel_leaves on (wheel.trans (lever_unarmed (by rwa [arm]) out))
  · refine wheel_leaves on (wheel.trans ?_)
    rw [show leverSpeed (s.panel p).curve (leverOf lever) = 0 from neutral, lever_neutral]
    rfl
  · exact wheel_leaves on
      (wheel.trans ((lever_out (by rwa [arm]) out).trans ((leverOut_other _).1 still)))
  · exact wheel_leaves on
      (wheel.trans ((lever_out (by rwa [arm]) out).trans ((leverOut_other _).2 st)))
  · refine ⟨_, wheel_leaves on
      (wheel.trans ((lever_out (by rwa [arm]) out).trans (leverOut_eq_played _ st))), played_channelFrame,
      played_change.1, played_change.2, played_channel_self .., fun r hr => ?_, fun id i g hr hx hg => ?_⟩
    · exact (played_queue_self ..).trans ((openedIfNone_queue (s.touchPanel p) _ _).1 r hr)
    · exact (played_queue_self ..).trans ((openedIfNone_queue (s.touchPanel p) _ _).2 id i g hr hx hg)
  · refine jog_leaves on (jog.trans ?_)
    rcases still with same | quiet
    · exact if_neg (not_not.mpr same)
    · split
      · exact (jogChannel_other _).1 quiet
      · rfl
  · exact jog_leaves on (jog.trans ((if_pos counts).trans ((jogChannel_other _).2 st)))
  · refine ⟨_, jog_leaves on (jog.trans ((if_pos counts).trans (jogChannel_eq_played _ st))), played_channelFrame,
      played_change.1, played_change.2, played_channel_self .., fun r hr => ?_, fun id i g hr hx hg => ?_⟩
    · exact (played_queue_self ..).trans ((openedIfNone_queue (s.touchPanel p) _ _).1 r hr)
    · exact (played_queue_self ..).trans ((openedIfNone_queue (s.touchPanel p) _ _).2 id i g hr hx hg)

/-! ## Keys (R105, R106) -/

section keys

variable {s : State} {p : PanelId} {c : ChannelId} {code : Byte}

theorem keyRecord_unbound {press : Byte} (h : (s.panel p).binding = none ∨ press ≠ 1) :
    s.keyRecord p code press = s.touchPanel p := by
  unfold State.keyRecord
  simp only [touchPanel_panel]
  rcases h with free | released
  · simp only [free]
  · split
    · rfl
    · exact if_neg released

theorem keyRecord_pressed (bound : (s.panel p).binding = some c) :
    s.keyRecord p code 1 = (s.touchPanel p).pressKey p c code := by
  unfold State.keyRecord
  simp only [touchPanel_panel, bound, if_true]

theorem pressKey_following (st : (s.channel c).state = .following) :
    s.pressKey p c code = s.raise (.keyRefused p c code .ganged) := if_pos st

theorem pressKey_other (st : (s.channel c).state ≠ .following) (h : 10 ≤ code.toNat) : s.pressKey p c code = s := by
  have none : keyCommand code c s = none := by
    unfold keyCommand
    split <;> simp_all
  unfold State.pressKey
  rw [if_neg st, none]

theorem pressKey_command {v : Verdict} (st : (s.channel c).state ≠ .following) (h : keyCommand code c s = some v) :
    s.pressKey p c code = s.settleKey p c code v := by
  unfold State.pressKey
  rw [if_neg st, h]

theorem keyCommand_eq {v : Verdict} (h : (code.toNat, v) ∈ [(0, playOn c none .key s), (1, pauseOn c .key s),
    (2, markInOn c s), (3, markOutOn c s), (4, takeOn c s), (7, liveOn c none .key s), (8, angleNextOn c .key s),
    (9, queueNextOn c .key s)]) : keyCommand code c s = some v := by
  simp only [List.mem_cons, Prod.mk.injEq, List.not_mem_nil, or_false] at h
  unfold keyCommand
  rcases h with ⟨hc, rfl⟩ | ⟨hc, rfl⟩ | ⟨hc, rfl⟩ | ⟨hc, rfl⟩ | ⟨hc, rfl⟩ | ⟨hc, rfl⟩ | ⟨hc, rfl⟩ | ⟨hc, rfl⟩ <;> simp only [hc]

theorem keyCommand_cue {mark : Option Mark} {side : Angle → Nat}
    (h : (code.toNat = 5 ∧ mark = (s.channel c).markIn ∧ side = (·.inSerial)) ∨
      (code.toNat = 6 ∧ mark = (s.channel c).markOut ∧ side = (·.outSerial))) :
    keyCommand code c s = some (cueOn c mark side s) := by
  unfold keyCommand
  rcases h with ⟨hc, rfl, rfl⟩ | ⟨hc, rfl, rfl⟩ <;> simp only [hc]

variable {mark : Option Mark} {side : Angle → Nat} {x : TrainId}

theorem cueOn_mark {m : Mark} (idle : (s.channel c).state ≠ .idle) (hx : s.sourceTrain (s.channel c).source = some x)
    (held : mark = some m) : (∀ serial, s.cueMark x m = some serial → cueOn c mark side s = s.cueTo c serial) ∧
      (s.cueMark x m = none → cueOn c mark side s = .refuse .notFound) := by
  subst held
  refine ⟨fun serial found => ?_, fun lost => ?_⟩ <;> unfold cueOn <;> rw [if_neg idle, hx] <;> dsimp only
  · rw [found]
  · rw [lost]

theorem cueMark_eq (m : Mark) : (m.train = x → s.cueMark x m = some m.serial) ∧
    (m.train ≠ x → s.cueMark x m = s.serialAt x m.tcnum
      (m.phase * 1200 * (s.train x).multiple / (s.train m.train).multiple / 1200)) :=
  ⟨fun same => if_pos same, fun other => if_neg other⟩

theorem cueOn_noMark (idle : (s.channel c).state ≠ .idle) (hx : s.sourceTrain (s.channel c).source = some x)
    (absent : mark = none) :
    (∀ y, (s.channel c).source = .train y → cueOn c mark side s = .refuse .noMark) ∧
    ∀ id i g, (s.channel c).source = .clip id i → s.angleOf id i = some g →
      cueOn c mark side s = s.cueTo c (side g) := by
  subst absent
  refine ⟨fun y src => ?_, fun id i g src angle => ?_⟩ <;> unfold cueOn <;> rw [if_neg idle, hx] <;> dsimp only <;>
    rw [src]
  simp only [angle]

theorem cueOn_plays (free : (s.channel c).state ≠ .following) : (cueOn c mark side s).leads State.Plays s := by
  have cues : ∀ serial, (s.cueTo c serial).leads State.Plays s := fun serial => ⟨c, gotoSerial_playsOn free⟩
  unfold cueOn
  split
  · trivial
  · split
    · trivial
    · split
      · exact cues _
      · trivial
    · split
      · split
        · exact cues _
        · trivial
      · trivial

end keys

/-- State t is s after a cue of channel c to a target serial, between bounds lo and hi (R79, R106). -/
def State.cued (s t : State) (c : ChannelId) (lo hi target : Nat) : Prop :=
  s.channelFrame t c ∧ t.queue c = s.queue c ∧ t.runLog = s.runLog ∧
    s.raised t (s.changeReport c (t.channel c) .key) ∧
    let head := (if target < lo then lo else if hi < target then hi else target) * 1200
    t.channel c = if (s.channel c).state = .live then { s.channel c with
        state := .cued, speed := 0, target := 0, head := head, edgeHold := false }
      else { s.channel c with head := head, edgeHold := false }

theorem cueTo_cued {s : State} {p : PanelId} {c : ChannelId} {code : Byte} {lo hi serial : Nat}
    (hb : s.bounds (s.channel c).source = some (lo, hi)) :
    s.cued (s.settleKey p c code (s.cueTo c serial)) c lo hi serial := by
  have leaves : s.settleKey p c code (s.cueTo c serial) = s.gotoSerial c serial .key := rfl
  rw [leaves]
  unfold State.cued
  by_cases live : (s.channel c).state = .live
  · rw [gotoSerial_live_eq_played serial _ hb live]
    exact ⟨played_channelFrame, played_queue_self .., played_change.1, played_change.2,
      (played_channel_self ..).trans (if_pos live).symm⟩
  · rw [gotoSerial_eq_played serial _ hb live]
    exact ⟨played_channelFrame, played_queue_self .., played_change.1, played_change.2,
      (played_channel_self ..).trans (if_neg live).symm⟩

/-- Settles O33: whatever a key's code, its panel is touched; then the channel's state, the code and the command. -/
theorem keys : Obligations.Keys := by
  intro p code press s on
  refine ⟨fun ignored => key_leaves on (keyRecord_unbound ignored), fun c pressed bound => ?_⟩
  subst pressed
  have key := keyRecord_pressed (s := s) (code := code) bound
  refine ⟨fun st => key_leaves on (key.trans (pressKey_following st)),
    fun st other => key_leaves on (key.trans (pressKey_other st other)), fun st =>
    ⟨fun f hf => key_leaves on (key.trans
      ((pressKey_command (s := s.touchPanel p) (p := p) (code := code) st (keyCommand_eq hf)).trans ?_)),
      fun mark side hm => ?_⟩⟩
  · cases f <;> rfl
  · have cue := key.trans (pressKey_command st (keyCommand_cue (s := s.touchPanel p) hm))
    have refused : ∀ why, cueOn c mark side (s.touchPanel p) = .refuse why →
        Leaves (.key p code 1) s ((s.touchPanel p).raise (.keyRefused p c code why)) := by
      intro why h
      rw [h] at cue
      exact key_leaves on cue
    refine ⟨fun idle => refused _ (if_pos idle), fun x lo hi idle hx hb => ?_⟩
    have cued : ∀ serial, cueOn c mark side (s.touchPanel p) = (s.touchPanel p).cueTo c serial →
        ∃ t, Leaves (.key p code 1) s t ∧ (s.touchPanel p).cued t c lo hi serial := by
      intro serial h
      rw [h] at cue
      exact ⟨_, key_leaves on cue, cueTo_cued (s := s.touchPanel p) hb⟩
    obtain ⟨near, far⟩ : (∀ m, m.train = x → (s.touchPanel p).cueMark x m = some m.serial) ∧
        (∀ m, m.train ≠ x → (s.touchPanel p).cueMark x m = s.serialAt x m.tcnum
          (m.phase * 1200 * (s.train x).multiple / (s.train m.train).multiple / 1200)) :=
      ⟨fun m => (cueMark_eq m).1, fun m => (cueMark_eq (s := s.touchPanel p) m).2⟩
    have held := fun (m : Mark) (hm : mark = some m) => cueOn_mark (s := s.touchPanel p) (side := side) idle hx hm
    refine ⟨fun m hm same => cued _ ((held m hm).1 _ (near m same)), fun m hm other => ⟨fun lost => ?_,
      fun serial found => ?_⟩, fun y absent src => ?_, fun id i g absent src angle => ?_⟩
    · exact refused _ ((held m hm).2 ((far m other).trans lost))
    · exact cued _ ((held m hm).1 _ ((far m other).trans found))
    · exact refused _ ((cueOn_noMark (s := s.touchPanel p) idle hx absent).1 y src)
    · exact cued _ ((cueOn_noMark (s := s.touchPanel p) idle hx absent).2 id i g src angle)

end Sys2Proof.Machine
end

section
/-! Marks (R115 to R118), and the clip commands that check, lock, trim, edit and query (R133, R137 to R140, R145 to
R149). -/

namespace Sys2Proof.Machine

/-! ## Marks (R115 to R117) -/

section marks

variable {s : State} {c : ChannelId}

theorem markOf_unseen (h : (s.channel c).lastPresent.bind (·.frame) = none) : s.markOf c = .error .noSource := by
  unfold State.markOf
  rw [h]

theorem markOf_untimed {p : Present} {f : FrameShown} (hp : (s.channel c).lastPresent = some p) (hf : p.frame = some f)
    (ht : f.timecode = none) : s.markOf c = .error .untimed := by
  unfold State.markOf
  simp only [hp, Option.bind_some, hf, ht]

theorem markOf_timed {p : Present} {f : FrameShown} {l : LabelPhase} (hp : (s.channel c).lastPresent = some p)
    (hf : p.frame = some f) (ht : f.timecode = some l) :
    s.markOf c = .ok ⟨f.train, f.serial, s.timebase.number l.label, l.phase⟩ := by
  unfold State.markOf
  simp only [hp, Option.bind_some, hf, ht]

theorem markInOn_error {st : Status} (h : s.markOf c = .error st) : markInOn c s = .refuse st := by
  unfold markInOn
  rw [h]

theorem markOutOn_error {st : Status} (h : s.markOf c = .error st) : markOutOn c s = .refuse st := by
  unfold markOutOn
  rw [h]

theorem markInOn_ok {m : Mark} (h : s.markOf c = .ok m) : markInOn c s =
    .done (s.setChannel c { s.channel c with markIn := some m }) (s.markReply m (s.channel c).markOut) := by
  unfold markInOn
  rw [h]

theorem markOutOn_ok {m : Mark} (h : s.markOf c = .ok m) : markOutOn c s =
    .done (s.setChannel c { s.channel c with markOut := some m }) (s.markReply m (s.channel c).markIn) := by
  unfold markOutOn
  rw [h]

theorem markInOn_plays : (markInOn c s).leads State.Plays s := by
  unfold markInOn
  split
  · trivial
  · exact ⟨c, playsOn_setChannel (permits_of_kept rfl rfl rfl rfl rfl rfl)⟩

theorem markOutOn_plays : (markOutOn c s).leads State.Plays s := by
  unfold markOutOn
  split
  · trivial
  · exact ⟨c, playsOn_setChannel (permits_of_kept rfl rfl rfl rfl rfl rfl)⟩

theorem markIn_plays (b : Byte) (s : State) : (markIn b s).leads State.Plays s :=
  leads_onChannel fun _ => markInOn_plays

theorem markOut_plays (b : Byte) (s : State) : (markOut b s).leads State.Plays s :=
  leads_onChannel fun _ => markOutOn_plays

theorem clearMarks_plays (b : Byte) (s : State) : (clearMarks b s).leads State.Plays s :=
  leads_onChannel fun c => ⟨c, playsOn_setChannel (permits_of_kept rfl rfl rfl rfl rfl rfl)⟩

end marks

/-- Settles O34: the mark is that of the frame last shown, which is absent, untimed or timed. -/
theorem marks : Obligations.Marks := by
  intro tag b c u s hc
  refine ⟨fun i kind row ht => ?_, fun p f l hp hf hl => ⟨fun ht => ?_, fun ht => ?_⟩⟩
  · have refuses : ∀ st, s.markOf c = .error st → TurnedAway i kind tag u s st := by
      intro st h
      simp only [List.mem_cons, Prod.mk.injEq, List.not_mem_nil, or_false] at row
      rcases row with ⟨rfl, rfl⟩ | ⟨rfl, rfl⟩
      · exact turnedAway_of_refuse (f := markIn) rfl ht ((onChannel_of_named hc _ s).trans (markInOn_error h))
      · exact turnedAway_of_refuse (f := markOut) rfl ht ((onChannel_of_named hc _ s).trans (markOutOn_error h))
    exact ⟨fun unseen => refuses _ (markOf_unseen unseen), fun p f hp hf hl => refuses _ (markOf_untimed hp hf hl)⟩
  · exact accepted_of_done (f := markIn) rfl ht
      ((onChannel_of_named hc _ s).trans (markInOn_ok (markOf_timed hp hf hl)))
  · exact accepted_of_done (f := markOut) rfl ht
      ((onChannel_of_named hc _ s).trans (markOutOn_ok (markOf_timed hp hf hl)))

/-! ## The value and clip checks (R133) -/

section checks

variable {w : Half} {f : Clip → State → Verdict} {s : State}

theorem onClip_of_bad (h : 1024 ≤ w.toNat) : onClip w f s = .refuse .badValue := by
  unfold onClip
  rw [clipIdOf_eq_none h]

theorem onClip_of_absent (h : w.toNat < 1024) (absent : s.clipOf w.toNat = none) : onClip w f s = .refuse .notFound := by
  unfold onClip
  rw [clipIdOf_eq_some h]
  simp only [absent]

theorem onClip_of_held {k : Clip} (h : w.toNat < 1024) (held : s.clipOf w.toNat = some k) : onClip w f s = f k s := by
  unfold onClip
  rw [clipIdOf_eq_some h]
  simp only [held]

theorem onBank_of_named {b : Byte} {n : Fin 16} (h : b.toNat = n.val) (g : Fin 16 → State → Verdict) (s : State) :
    onBank b g s = g n s := by
  unfold onBank
  rw [bankOf_eq_some h]

theorem onBank_of_unnamed {b : Byte} (h : 16 ≤ b.toNat) (g : Fin 16 → State → Verdict) (s : State) :
    onBank b g s = .refuse .badValue := by
  unfold onBank
  rw [bankOf_eq_none h]

/-- A command that comes down to the clip check is refused by it. -/
theorem clip_refused {α : Type} {i : Instr} {kind tag : Byte} {a : α} {block : α → State → Verdict} {u : State}
    (row : exec i u = command i kind tag (.fields a) block u) (ht : u.takes i s) (h : block a s = onClip w f s) :
    (1024 ≤ w.toNat → TurnedAway i kind tag u s .badValue) ∧
    (w.toNat < 1024 → s.clipOf w.toNat = none → TurnedAway i kind tag u s .notFound) :=
  ⟨fun bad => turnedAway_of_refuse row ht (h.trans (onClip_of_bad bad)),
    fun ok absent => turnedAway_of_refuse row ht (h.trans (onClip_of_absent ok absent))⟩

theorem all_printable {name : List Byte} :
    name.all printable = true ↔ ∀ x ∈ name, 32 ≤ x.toNat ∧ x.toNat ≤ 126 := by
  simp [printable]

theorem trimClip_eq {a : TrimClipArgs} (h : a.angle.toNat < 8) : trimClip a s =
    onClip a.clip (trimOn a.angle.toNat a.inSerial.toNat a.outSerial.toNat) s := by
  unfold trimClip
  rw [angleIndexOf_eq_some h]

theorem rename_eq {a : RenameArgs} (length : a.name.length ≤ 16)
    (chars : ∀ x ∈ a.name, 32 ≤ x.toNat ∧ x.toNat ≤ 126) : rename a s = onClip a.clip (fun k s =>
      .done (s.setClip { k with name := if a.name.isEmpty then none else some a.name }) .empty) s :=
  if_pos ⟨length, all_printable.mpr chars⟩

theorem rate_eq {a : RateArgs} (h : a.rating.toNat ≤ 3) : rate a s =
    onClip a.clip (fun k s => .done (s.setClip { k with rating := a.rating.toNat }) .empty) s := if_pos h

/-- A clip with the parts of a SET_CLIP_PLAY applied (R147). -/
def playEdited (k : Clip) (a : SetClipPlayArgs) : Clip :=
  { k with
    endAction := Part.apply a.endAction id k.endAction
    speed := Part.apply a.speed speedOf k.speed
    bounce := Part.apply a.bounce bounceOf k.bounce }

theorem bounceValid_iff {p : Sys2Proof.Part BounceField} : bounceValid p = true ↔
    ∀ f, p = .value f → 1 ≤ f.forwardSpeed.toInt ∧ f.forwardSpeed.toInt ≤ 38400 ∧
      1 ≤ f.reverseSpeed.toInt ∧ f.reverseSpeed.toInt ≤ 38400 := by
  cases p with
  | keep => simp [bounceValid]
  | clear => simp [bounceValid]
  | value b =>
    unfold bounceValid
    rw [decide_eq_true_eq]
    constructor
    · rintro h f same
      obtain rfl := Sys2Proof.Part.value.inj same
      exact h
    · exact fun h => h b rfl

theorem setClipPlay_eq {a : SetClipPlayArgs} (h : bounceValid a.bounce = true) : setClipPlay a s =
    onClip a.clip (fun k s => .done (s.setClip (playEdited k a))
      (.clipPlay (playEdited k a).endAction (playEdited k a).speed (playEdited k a).bounce)) s := if_pos h

end checks

/-- Settles O37: each command comes down to the clip check, to the bank check, or to the check of its own field. -/
theorem clipChecks : Obligations.ClipChecks := by
  refine ⟨fun tag w u s i kind v a b nm pe pw pb ht row => ?_, fun tag w u s i kind v a b nm pe pw bf ht row => ?_,
    fun tag b v u s i kind ht row => ?_⟩
  · simp only [List.mem_cons, Prod.mk.injEq, List.not_mem_nil, or_false] at row
    rcases row with (⟨rfl, rfl⟩ | ⟨rfl, rfl⟩ | ⟨rfl, rfl⟩ | ⟨rfl, rfl⟩) | ⟨⟨rfl, rfl⟩, small⟩ |
      ⟨⟨rfl, rfl⟩, length, chars⟩ | ⟨⟨rfl, rfl⟩, small⟩ | ⟨⟨rfl, rfl⟩, range⟩
    · exact clip_refused (block := lockClip) rfl ht rfl
    · exact clip_refused (block := unlockClip) rfl ht rfl
    · exact clip_refused (block := deleteClip) rfl ht rfl
    · exact clip_refused (block := queryClip) rfl ht rfl
    · exact clip_refused (block := trimClip) rfl ht (trimClip_eq small)
    · exact clip_refused (block := rename) rfl ht (rename_eq length chars)
    · exact clip_refused (block := rate) rfl ht (rate_eq small)
    · exact clip_refused (block := setClipPlay) rfl ht (setClipPlay_eq (bounceValid_iff.mpr range))
  · simp only [Prod.mk.injEq] at row
    rcases row with ⟨⟨rfl, rfl⟩, high⟩ | ⟨⟨rfl, rfl⟩, bad⟩ | ⟨⟨rfl, rfl⟩, high⟩ | ⟨⟨rfl, rfl⟩, bad⟩
    · refine turnedAway_of_refuse (f := trimClip) rfl ht ?_
      unfold trimClip
      rw [angleIndexOf_eq_none high]
    · refine turnedAway_of_refuse (f := rename) rfl ht (if_neg fun ok => ?_)
      obtain ⟨length, chars⟩ := ok
      rcases bad with long | ⟨x, hx, range⟩
      · exact absurd length (by simpa using long)
      · have := all_printable.mp chars x hx
        omega
    · exact turnedAway_of_refuse (f := rate) rfl ht (if_neg (by simpa using high))
    · refine turnedAway_of_refuse (f := setClipPlay) rfl ht (if_neg fun ok => ?_)
      have := bounceValid_iff.mp ok bf rfl
      omega
  · simp only [List.mem_cons, Prod.mk.injEq, List.not_mem_nil, or_false] at row
    rcases row with ⟨⟨rfl, rfl⟩ | ⟨rfl, rfl⟩ | ⟨rfl, rfl⟩, high⟩ | ⟨⟨rfl, rfl⟩, bad⟩
    · exact turnedAway_of_refuse (f := clearBank) rfl ht (onBank_of_unnamed high ..)
    · exact turnedAway_of_refuse (f := guardBank) rfl ht (onBank_of_unnamed high ..)
    · exact turnedAway_of_refuse (f := unguardBank) rfl ht (onBank_of_unnamed high ..)
    · refine turnedAway_of_refuse (f := listBank) rfl ht ?_
      by_cases high : 16 ≤ b.toNat
      · exact onBank_of_unnamed high ..
      · have late : 63 < v.toNat := by omega
        exact (onBank_of_named (n := ⟨b.toNat, by omega⟩) rfl _ s).trans (if_pos late)

/-! ## Lock counts (R26, R137, R138) -/

theorem raiseLocks {l : List (Nat × Nat)} (es : List Nat) (wf : locksWf l = true) :
    locksWf (es.foldl raiseLock l) = true ∧ ∀ e, lockCount (es.foldl raiseLock l) e = lockCount l e + es.count e := by
  induction es generalizing l with
  | nil => exact ⟨wf, fun e => rfl⟩
  | cons a rest ih =>
    obtain ⟨wf', counts⟩ := ih (raiseLock_wf a wf)
    refine ⟨wf', fun e => (counts e).trans ?_⟩
    rw [raiseLock, lockCount_setLock _ _ _ _ wf, List.count_cons]
    by_cases h : e = a
    · subst h; simp; omega
    · simp [h, Ne.symm h]

theorem lowerLocks {l : List (Nat × Nat)} (es : List Nat) (wf : locksWf l = true) :
    locksWf (es.foldl lowerLock l) = true ∧ ∀ e, lockCount (es.foldl lowerLock l) e = lockCount l e - es.count e := by
  induction es generalizing l with
  | nil => exact ⟨wf, fun e => rfl⟩
  | cons a rest ih =>
    obtain ⟨wf', counts⟩ := ih (lowerLock_wf a wf)
    refine ⟨wf', fun e => (counts e).trans ?_⟩
    rw [lowerLock, lockCount_setLock _ _ _ _ wf, List.count_cons]
    by_cases h : e = a
    · subst h; simp; omega
    · simp [h, Ne.symm h]

section trims

variable {s : State} {k : Clip}

theorem trimOn_absent {index a b : Nat} (absent : ∀ g, k.angles[index]? = some g → g.present = false) :
    trimOn index a b k s = .refuse .notFound := by
  unfold trimOn
  cases h : k.angles[index]? with
  | none => rfl
  | some g => simp [absent g h]

theorem trimOn_badRange {index a b : Nat} {g : Angle} (angle : k.angles[index]? = some g) (present : g.present = true)
    (bad : b < a ∨ (s.train g.train).retained a = false ∨ (s.train g.train).retained b = false) :
    trimOn index a b k s = .refuse .badRange := by
  unfold trimOn
  simp only [angle, present]
  rcases bad with order | lost | lost
  · simp [order]
  · simp [lost]
  · simp [lost]

theorem trimOn_done {index a b : Nat} {g : Angle} (angle : k.angles[index]? = some g) (present : g.present = true)
    (order : a ≤ b) (first : (s.train g.train).retained a = true) (last : (s.train g.train).retained b = true) :
    trimOn index a b k s = s.trim k index g a b := by
  unfold trimOn
  simp [angle, present, Nat.not_lt.mpr order, first, last]

end trims

/-- Settles O38: locks and unlocks by the present state of the clip; a trim by its angle and its range. -/
theorem locksAndTrims : Obligations.LocksAndTrims := by
  intro tag w u s k hw clip law
  obtain ⟨wf, -⟩ := law
  refine ⟨fun ht => ?_, fun ht => ?_, fun i wa wb small ht => ?_⟩
  · have row : lockClip w s = lockOn k s := onClip_of_held hw clip
    refine ⟨fun lost => turnedAway_of_refuse (f := lockClip) rfl ht (row.trans (if_pos lost)),
      fun alive held => accepted_of_done (f := lockClip) rfl ht (row.trans ((if_neg alive).trans (if_pos held))),
      fun alive free => ?_⟩
    obtain ⟨wf', counts⟩ := raiseLocks (s.clipExtents k) wf
    exact ⟨_, accepted_of_done (f := lockClip) rfl ht (row.trans ((if_neg alive).trans (if_neg (by simp [free])))),
      rfl, wf', counts, rfl⟩
  · have row : unlockClip w s = unlockOn k s := onClip_of_held hw clip
    refine ⟨fun free => accepted_of_done (f := unlockClip) rfl ht (row.trans (if_pos free)), fun held => ?_⟩
    obtain ⟨wf', counts⟩ := lowerLocks (s.clipExtents k) wf
    exact ⟨_, accepted_of_done (f := unlockClip) rfl ht (row.trans (if_neg (by simp [held]))), rfl, wf', counts, rfl⟩
  · have row : trimClip ⟨w, i, wa, wb⟩ s = trimOn i.toNat wa.toNat wb.toNat k s :=
      (trimClip_eq small).trans (onClip_of_held hw clip)
    refine ⟨fun absent => turnedAway_of_refuse (f := trimClip) rfl ht (row.trans (trimOn_absent absent)),
      fun g angle present => ⟨fun bad =>
        turnedAway_of_refuse (f := trimClip) rfl ht (row.trans (trimOn_badRange angle present bad)),
      fun order first last => ?_⟩⟩
    have done := row.trans (trimOn_done angle present order first last)
    obtain ⟨lowered, lowers⟩ := lowerLocks (s.touched g.train g.inSerial g.outSerial) wf
    obtain ⟨raised, raises⟩ := raiseLocks (s.touched g.train wa.toNat wb.toNat) lowered
    refine ⟨_, _, accepted_of_done (f := trimClip) rfl ht done, rfl, ?_, fun free => ?_, fun held => ?_, rfl⟩
    · dsimp only
      split
      · exact raised
      · exact wf
    · simp [free]
    · refine ⟨by simp [held], fun e => ?_⟩
      simp only [held, decide_true, if_true]
      rw [setClip_locks, raises, lowers]

/-! ## Edits and queries (R145 to R149) -/

theorem mem_users {s : State} {id : Nat} {c : ChannelId} :
    c ∈ s.users id ↔ ∃ i, (s.channel c).source = .clip id i := by
  have used : s.usedBy id c = true ↔ ∃ i, (s.channel c).source = .clip id i := by
    unfold State.usedBy
    cases (s.channel c).source with
    | clip n i => simp
    | noSource => simp
    | train x => simp
  rw [State.users, List.mem_filter, used]
  exact and_iff_right (mem_allChannels c)

/-- Settles O40: guards, edits and queries by the checks they pass and the field they set. -/
theorem clipEditsAndQueries : Obligations.ClipEditsAndQueries := by
  refine ⟨fun tag u s => ⟨fun b bank hb => ⟨fun ht => ?_, fun ht => ?_⟩, fun w k hw clip => ⟨fun nm length chars ht => ?_,
    fun v small ht => ?_, fun pe pw pb range ht => ?_⟩⟩, fun tag u s => ⟨fun w k hw clip ht => ?_,
    fun b i bank hb small ht => ?_⟩⟩
  · exact accepted_of_done (f := guardBank) rfl ht (onBank_of_named hb _ s)
  · exact accepted_of_done (f := unguardBank) rfl ht (onBank_of_named hb _ s)
  · have named : (if nm.isEmpty then none else some nm) = if nm = [] then none else some nm := by
      cases nm <;> rfl
    refine accepted_of_done (f := rename) rfl ht ((rename_eq length chars).trans ((onClip_of_held hw clip).trans ?_))
    rw [named]
    rfl
  · exact accepted_of_done (f := rate) rfl ht ((rate_eq small).trans (onClip_of_held hw clip))
  · refine ⟨_, _, _, accepted_of_done (f := setClipPlay) rfl ht
      ((setClipPlay_eq (bounceValid_iff.mpr range)).trans (onClip_of_held hw clip)), ?_⟩
    refine ⟨?_, ?_, ?_, ?_, ?_, ?_, ?_, ?_, ?_⟩
    · rintro rfl; rfl
    · rintro rfl; rfl
    · rintro x rfl; rfl
    · rintro rfl; rfl
    · rintro rfl; rfl
    · rintro x rfl; rfl
    · rintro rfl; rfl
    · rintro rfl; rfl
    · rintro x rfl; rfl
  · refine ⟨_, _, accepted_of_done (f := queryClip) rfl ht (onClip_of_held hw clip), fun c => ?_, ?_, fun v hv => ?_⟩
    · rw [clipOf_id clip]
      exact mem_users
    · rw [List.map_map]
      exact List.map_id k.angles
    · obtain ⟨g, -, rfl⟩ := List.mem_map.mp hv
      exact ⟨fun absent => ⟨if_neg (by rw [show g.present = false from absent]; decide),
        if_neg (by rw [show g.present = false from absent]; decide)⟩, fun present => ⟨if_pos present, if_pos present⟩⟩
  · exact accepted_of_done (f := listBank) rfl ht
      ((onBank_of_named hb _ s).trans (if_neg (by simpa using small)))

end Sys2Proof.Machine
end

section
/-! TAKE (R120 to R128): the ends of the take, the angles they yield, and the clip committed. -/

namespace Sys2Proof.Machine

/-! ## Holes of a range (R131) -/

/-- With a step for each entry that ends above a, every serial from a to b is found retained exactly when it is. -/
theorem coveredFrom_iff {chain : List ChainEntry} {k a b : Nat}
    (fuel : chain.countP (fun e => decide (a < e.first + e.fill)) ≤ k) :
    coveredFrom chain k a b = true ↔ ∀ n, a ≤ n → n ≤ b → ∃ e ∈ chain, e.holds n = true := by
  induction k generalizing a with
  | zero =>
    simp only [coveredFrom, decide_eq_true_eq]
    refine ⟨fun past n low high => by omega, fun covered => ?_⟩
    by_contra within
    obtain ⟨e, he, holds⟩ := covered a le_rfl (by omega)
    have none := List.countP_eq_zero.mp (Nat.le_zero.mp fuel) e he
    simp only [ChainEntry.holds, decide_eq_true_eq] at holds none
    omega
  | succ k ih =>
    unfold coveredFrom
    by_cases past : b < a
    · rw [if_pos past]
      exact iff_of_true rfl fun n low high => by omega
    · rw [if_neg past]
      cases found : chain.find? (·.holds a) with
      | none =>
        refine iff_of_false (by simp) fun covered => ?_
        obtain ⟨e, he, holds⟩ := covered a le_rfl (by omega)
        exact List.find?_eq_none.mp found e he holds
      | some e =>
        have holds : e.first ≤ a ∧ a < e.first + e.fill := by
          simpa [ChainEntry.holds] using List.find?_some found
        have mem := List.mem_of_find?_eq_some found
        have fewer : chain.countP (fun d => decide (e.first + e.fill < d.first + d.fill)) ≤ k := by
          have lt : chain.countP (fun d => decide (e.first + e.fill < d.first + d.fill)) <
              chain.countP (fun d => decide (a < d.first + d.fill)) := by
            rw [List.countP_eq_length_filter, List.countP_eq_length_filter]
            have sub : (chain.filter fun d => decide (e.first + e.fill < d.first + d.fill)).Sublist
                (chain.filter fun d => decide (a < d.first + d.fill)) :=
              List.monotone_filter_right chain fun d hd => by simp only [decide_eq_true_eq] at hd ⊢; omega
            refine lt_of_le_of_ne sub.length_le fun same => ?_
            have eq := sub.eq_of_length same
            have : e ∈ chain.filter fun d => decide (e.first + e.fill < d.first + d.fill) :=
              eq ▸ List.mem_filter.mpr ⟨mem, by simpa using holds.2⟩
            simp at this
          omega
        dsimp only
        rw [ih fewer]
        refine ⟨fun later n low high => ?_, fun covered n low high => covered n (by omega) high⟩
        by_cases here : n < e.first + e.fill
        · exact ⟨e, mem, by simp only [ChainEntry.holds, decide_eq_true_eq]; omega⟩
        · exact later n (by omega) high

/-- A range is holed when a serial of it is not retained (R131). -/
theorem holed_iff {t : Train} {a b : Nat} :
    t.holed a b = true ↔ ∃ n, a ≤ n ∧ n ≤ b ∧ t.retained n = false := by
  have covered : coveredFrom t.chain t.chain.length a b = true ↔ _ := coveredFrom_iff List.countP_le_length
  unfold Train.holed
  rw [Bool.not_eq_true', ← Bool.not_eq_true, covered]
  simp [Train.retained]

/-! ## The ends of the take (R121, R122) -/

section take

variable {s : State} {c : ChannelId}

theorem takeOut_eq {mo : Mark} (h : (s.channel c).markOut = some mo ∨ ((s.channel c).markOut = none ∧
    ∃ p f l, (s.channel c).lastPresent = some p ∧ p.frame = some f ∧ f.timecode = some l ∧
      mo = ⟨f.train, f.serial, s.timebase.number l.label, l.phase⟩)) : s.takeOut c = .ok mo := by
  unfold State.takeOut
  rcases h with held | ⟨absent, p, f, l, hp, hf, hl, rfl⟩
  · rw [held]
  · rw [absent]
    exact markOf_timed hp hf hl

theorem takeOut_error {st : Status} (absent : (s.channel c).markOut = none) (h : s.markOf c = .error st) :
    s.takeOut c = .error st := by
  unfold State.takeOut
  rw [absent]
  exact h

theorem takeEnds_eq {mi mo inEnd outEnd : Mark}
    (swap : s.instantOf mo < s.instantOf mi ∧ s.instantOf mi - s.instantOf mo < 12 * s.timebase.day →
      inEnd = mo ∧ outEnd = mi)
    (keep : ¬(s.instantOf mo < s.instantOf mi ∧ s.instantOf mi - s.instantOf mo < 12 * s.timebase.day) →
      inEnd = mi ∧ outEnd = mo) : s.takeEnds mi mo = (inEnd, outEnd) := by
  unfold State.takeEnds
  by_cases order : s.instantOf mi ≤ s.instantOf mo
  · obtain ⟨rfl, rfl⟩ := keep (by omega)
    exact if_pos order
  · rw [if_neg order]
    by_cases near : s.instantOf mi - s.instantOf mo < 12 * s.timebase.day
    · obtain ⟨rfl, rfl⟩ := swap ⟨by omega, near⟩
      exact if_pos near
    · obtain ⟨rfl, rfl⟩ := keep fun h => near h.2
      exact if_neg near

/-! ## The id of the clip (R127) -/

/-- The ids of a bank, in ascending order. -/
theorem bankIds_sorted (bank : Nat) : ((List.range 64).map (64 * bank + ·)).Pairwise (· < ·) :=
  List.pairwise_map.mpr (List.pairwise_lt_range.imp fun h => by omega)

theorem mem_bankIds {bank id : Nat} : id ∈ (List.range 64).map (64 * bank + ·) ↔ id / 64 = bank := by
  rw [List.mem_map]
  constructor
  · rintro ⟨k, hk, rfl⟩
    rw [List.mem_range] at hk
    omega
  · rintro rfl
    exact ⟨id % 64, List.mem_range.mpr (Nat.mod_lt _ (by decide)), Nat.div_add_mod id 64⟩

theorem freeId_none {bank : Fin 16} (full : ∀ id, id / 64 = bank.val → (s.clipOf id).isSome = true) :
    s.freeId bank = none := by
  unfold State.freeId
  refine List.find?_eq_none.mpr fun id hid => ?_
  have := full id (mem_bankIds.mp hid)
  simpa using Option.isSome_iff_ne_none.mp this

/-- The lowest free id of a bank is found. -/
theorem freeId_some {bank : Fin 16} {id : Nat} (free : s.clipOf id = none) (mine : id / 64 = bank.val)
    (least : ∀ j, j / 64 = bank.val → j < id → (s.clipOf j).isSome = true) : s.freeId bank = some id := by
  unfold State.freeId
  obtain ⟨pre, post, split⟩ := List.append_of_mem (mem_bankIds.mpr mine)
  have sorted := bankIds_sorted bank.val
  rw [split] at sorted ⊢
  refine find?_of_append (fun j hj => ?_) (by simp [free])
  have below := (List.pairwise_append.mp sorted).2.2 j hj id List.mem_cons_self
  have member : j / 64 = bank.val := mem_bankIds.mp (split ▸ List.mem_append_left _ hj)
  simpa using least j member below

/-! ## The angles (R123 to R125) -/

/-- An end of the take lies at this serial of a train (R124). -/
theorem endOn_some {x : TrainId} {e : Mark} {q serial : Nat} : s.endOn x e q = some serial ↔
    (e.train = x ∧ serial = e.serial ∧ (s.train x).retained serial = true) ∨
      (e.train ≠ x ∧ s.serialAt x e.tcnum q = some serial) := by
  unfold State.endOn
  by_cases same : e.train = x
  · rw [if_pos same]
    by_cases kept : (s.train x).retained e.serial = true
    · rw [if_pos kept]
      constructor
      · intro h
        obtain rfl := Option.some.inj h
        exact .inl ⟨same, rfl, kept⟩
      · rintro (⟨-, rfl, -⟩ | ⟨other, -⟩)
        · rfl
        · exact absurd same other
    · rw [if_neg kept]
      refine iff_of_false (by simp) ?_
      rintro (⟨-, rfl, kept'⟩ | ⟨other, -⟩)
      · exact kept kept'
      · exact other same
  · rw [if_neg same]
    simp [same]

/-- Train x yields the range first to last for a take (R124, R125). -/
def State.yields (s : State) (inEnd outEnd : Mark) (x : TrainId) (first last : Nat) : Prop :=
  let t := s.train x
  s.endOn x inEnd (inPhase inEnd.phase t.multiple (s.train inEnd.train).multiple) = some first ∧
    s.endOn x outEnd (outPhase outEnd.phase t.multiple (s.train outEnd.train).multiple) = some last ∧ first ≤ last

/-- The angle of a range on a train, as a TAKE captures it (R125). -/
def State.captured (s : State) (x : TrainId) (first last : Nat) : Angle :=
  { train := x, inSerial := first, outSerial := last, present := true, holed := (s.train x).holed first last,
    trimmed := false }

theorem angleFor_some {inEnd outEnd : Mark} {x : TrainId} {g : Angle} : s.angleFor inEnd outEnd x = some g ↔
    ∃ first last, s.yields inEnd outEnd x first last ∧ g = s.captured x first last := by
  unfold State.angleFor State.yields
  dsimp only
  split
  · next a b ha hb =>
    rw [ha, hb]
    by_cases order : a ≤ b
    · rw [if_pos order]
      constructor
      · intro h
        obtain rfl := Option.some.inj h
        exact ⟨a, b, ⟨rfl, rfl, order⟩, rfl⟩
      · rintro ⟨first, last, ⟨hf, hl, -⟩, rfl⟩
        obtain rfl := Option.some.inj hf
        obtain rfl := Option.some.inj hl
        rfl
    · rw [if_neg order]
      refine iff_of_false (by simp) ?_
      rintro ⟨first, last, ⟨hf, hl, order'⟩, -⟩
      obtain rfl := Option.some.inj hf
      obtain rfl := Option.some.inj hl
      exact order order'
  · next unfound =>
    refine iff_of_false (by simp) ?_
    rintro ⟨first, last, ⟨hf, hl, -⟩, -⟩
    exact unfound first last hf hl

/-- The angles of a take, in candidate order. -/
def State.takenAngles (s : State) (inEnd outEnd : Mark) (trains : List TrainId) : List Angle :=
  trains.filterMap (s.angleFor inEnd outEnd)

theorem takenAngles_trains (inEnd outEnd : Mark) (trains : List TrainId) :
    (s.takenAngles inEnd outEnd trains).map (·.train) =
      trains.filter fun x => (s.angleFor inEnd outEnd x).isSome := by
  unfold State.takenAngles
  induction trains with
  | nil => rfl
  | cons x rest ih =>
    cases h : s.angleFor inEnd outEnd x with
    | none => simp [h, ih]
    | some g =>
      obtain ⟨first, last, -, rfl⟩ := angleFor_some.mp h
      simp [h, ih, State.captured]

theorem mem_takenAngles {inEnd outEnd : Mark} {trains : List TrainId} {g : Angle}
    (h : g ∈ s.takenAngles inEnd outEnd trains) : s.yields inEnd outEnd g.train g.inSerial g.outSerial ∧
      g = s.captured g.train g.inSerial g.outSerial := by
  obtain ⟨x, -, hx⟩ := List.mem_filterMap.mp h
  obtain ⟨first, last, yields, rfl⟩ := angleFor_some.mp hx
  exact ⟨yields, rfl⟩

theorem takenAngles_nil {inEnd outEnd : Mark} {trains : List TrainId} : s.takenAngles inEnd outEnd trains = [] ↔
    ∀ x ∈ trains, ∀ first last, ¬s.yields inEnd outEnd x first last := by
  unfold State.takenAngles
  rw [List.filterMap_eq_nil_iff]
  refine forall₂_congr fun x _ => ?_
  rw [Option.eq_none_iff_forall_not_mem]
  constructor
  · exact fun none first last yields => none _ (angleFor_some.mpr ⟨first, last, yields, rfl⟩)
  · intro none g hg
    obtain ⟨first, last, yields, -⟩ := angleFor_some.mp hg
    exact none first last yields

/-- The primary angle lies on the channel's train where one does, and is angle 0 otherwise (R126). -/
theorem primaryOf_eq (own : TrainId) (angles : List Angle) :
    (own ∈ angles.map (·.train) → (angles[primaryOf own angles]?).map (·.train) = some own) ∧
    (own ∉ angles.map (·.train) → primaryOf own angles = 0) := by
  unfold primaryOf
  refine ⟨fun mem => ?_, fun out => ?_⟩
  · obtain ⟨g, hg, rfl⟩ := List.mem_map.mp mem
    cases found : angles.findIdx? (fun a => a.train == g.train) with
    | none => exact absurd (List.findIdx?_eq_none_iff.mp found g hg) (by simp)
    | some i =>
      obtain ⟨lt, same, -⟩ := List.findIdx?_eq_some_iff_getElem.mp found
      rw [Option.getD_some, List.getElem?_eq_getElem lt, Option.map_some]
      exact congrArg some (by simpa using same)
  · rw [List.findIdx?_eq_none_iff.mpr fun g hg => by
      simpa using fun e : g.train = own => out (e ▸ List.mem_map_of_mem hg)]
    rfl

/-- Present angles of which none is trimmed make a VALID clip where none is holed, and a PARTIAL one elsewhere
(R132). -/
theorem clipStateOf_taken {angles : List Angle} (ne : angles ≠ [])
    (whole : ∀ g ∈ angles, g.present = true ∧ g.trimmed = false) :
    clipStateOf angles = if angles.all (fun g => !g.holed) then .valid else .partialClip := by
  have valid : (angles.all fun a => a.present && !a.holed && !a.trimmed) = angles.all fun g => !g.holed := by
    rw [Bool.eq_iff_iff, List.all_eq_true, List.all_eq_true]
    refine forall₂_congr fun g hg => ?_
    obtain ⟨present, trimmed⟩ := whole g hg
    simp [present, trimmed]
  have kept : ¬(angles.all fun a => !a.present) = true := by
    obtain ⟨g, hg⟩ := List.exists_mem_of_ne_nil _ ne
    intro h
    have := List.all_eq_true.mp h g hg
    simp [(whole g hg).1] at this
  unfold clipStateOf
  rw [valid, if_neg kept]

/-! ## The commit (R128) -/

theorem find?_insertClip {k : Clip} {l : List Clip} (fresh : ∀ d ∈ l, d.id ≠ k.id) (j : Nat) :
    (insertClip k l).find? (fun d => d.id == j) = if j = k.id then some k else l.find? fun d => d.id == j := by
  have front : ∀ m : List Clip, (k :: m).find? (fun d => d.id == j) =
      if j = k.id then some k else m.find? fun d => d.id == j := by
    intro m
    by_cases same : j = k.id
    · simp [same]
    · simp [same, Ne.symm same]
  induction l with
  | nil => exact front []
  | cons d rest ih =>
    unfold insertClip
    split
    · exact front _
    · have other : (d.id == k.id) = false := by simpa using fresh d List.mem_cons_self
      rw [List.find?_cons, ih fun d hd => fresh d (List.mem_cons_of_mem _ hd)]
      by_cases same : j = k.id
      · simp [same, other]
      · simp [same, List.find?_cons]

theorem clipOf_none_iff {id : Nat} : s.clipOf id = none ↔ ∀ d ∈ s.clips, d.id ≠ id := by
  unfold State.clipOf
  rw [List.find?_eq_none]
  simp

/-- The state a TAKE leaves with clip k (R128). -/
def State.committed (s : State) (c : ChannelId) (k : Clip) : State :=
  State.raise (State.setChannel { s with clips := insertClip k s.clips } c
    { s.channel c with markIn := none, markOut := none })
    (.committed c k.id k.angles.length (((k.angles[k.primary]?).map (·.train)).getD 0) k.state)

theorem commitTake_eq (k : Clip) : s.commitTake c k = .done (s.committed c k)
    (.take k.id k.primary (k.angles.map fun g => ⟨g.train, g.inSerial, g.outSerial, g.holed⟩)) := rfl

theorem committed_reports {k : Clip} {g : Angle} (hg : k.angles[k.primary]? = some g) :
    (s.committed c k).reports = (s.raise (.committed c k.id k.angles.length g.train k.state)).reports := by
  unfold State.committed
  rw [hg]
  exact raise_reports_congr _ rfl rfl

theorem committed_frame (k : Clip) : (s.committed c k).clips = insertClip k s.clips ∧
    (s.committed c k).channel c = { s.channel c with markIn := none, markOut := none } ∧
    (∀ d, d ≠ c → (s.committed c k).channel d = s.channel d) ∧
    { s.committed c k with clips := s.clips, channels := s.channels, reports := s.reports } = s := by
  unfold State.committed
  obtain ⟨r, h⟩ := raise_eq (State.setChannel { s with clips := insertClip k s.clips } c
    { s.channel c with markIn := none, markOut := none })
    (.committed c k.id k.angles.length (((k.angles[k.primary]?).map (·.train)).getD 0) k.state)
  rw [h]
  exact ⟨rfl, setChannel_channel_self .., fun d hd => setChannel_channel_ne _ _ _ hd, rfl⟩

/-! ## TAKE by its outcomes (R120) -/

theorem takeOn_noMark (h : (s.channel c).markIn = none) : takeOn c s = .refuse .noMark := by
  unfold takeOn
  rw [h]

theorem takeOn_noOut {mi : Mark} {st : Status} (hi : (s.channel c).markIn = some mi) (ho : s.takeOut c = .error st) :
    takeOn c s = .refuse st := by
  unfold takeOn
  simp only [hi, ho]

/-- TAKE with both marks: the table, the bank and the angles, in this order. -/
theorem takeOn_marked {mi mo inEnd outEnd : Mark} (hi : (s.channel c).markIn = some mi) (ho : s.takeOut c = .ok mo)
    (ends : s.takeEnds mi mo = (inEnd, outEnd)) :
    (1024 ≤ s.clips.length → takeOn c s = .refuse .tableFull) ∧
    (s.clips.length < 1024 → s.freeId (s.channel c).targetBank = none → takeOn c s = .refuse .bankFull) ∧
    ∀ id, s.clips.length < 1024 → s.freeId (s.channel c).targetBank = some id →
      let own := s.takeTrain c inEnd
      let angles := s.takenAngles inEnd outEnd (s.candidates c own)
      (angles = [] → takeOn c s = .refuse .notFound) ∧
      (angles ≠ [] → takeOn c s = s.commitTake c (newClip id (primaryOf own angles) angles inEnd outEnd)) := by
  unfold takeOn
  simp only [hi, ho]
  refine ⟨fun full => if_pos full, fun room none => ?_, fun id room found => ⟨fun empty => ?_, fun held => ?_⟩⟩
  · rw [if_neg (by omega), none]
  · rw [if_neg (by omega), found]
    simp only [ends]
    exact if_pos (List.isEmpty_iff.mpr empty)
  · rw [if_neg (by omega), found]
    simp only [ends]
    exact if_neg (mt List.isEmpty_iff.mp held)

end take

/-- Settles O36: the marks, the table and the bank checked in their order, and the angles and the clip of what is left.
(`Machine.take` is the model's block itself, so the theorem of that name stands one name deeper.) -/
theorem Settled.take : Obligations.Take := by
  intro tag b c u s hc ht
  have row : Machine.take b s = takeOn c s := onChannel_of_named hc _ s
  have refuses : ∀ st, takeOn c s = .refuse st → TurnedAway (.take tag (.fields b)) 0x43 tag u s st :=
    fun st h => turnedAway_of_refuse (f := Machine.take) rfl ht (row.trans h)
  refine ⟨fun none => refuses _ (takeOn_noMark none), fun m hm absent unseen =>
    refuses _ (takeOn_noOut hm (takeOut_error absent (markOf_unseen unseen))), fun m p f hm absent hp hf untimed =>
    refuses _ (takeOn_noOut hm (takeOut_error absent (markOf_untimed hp hf untimed))),
    fun mi mo hi ho => ?_⟩
  dsimp only
  intro inEnd outEnd swap keep
  have ends := takeEnds_eq (s := s) swap keep
  have asked : s.candidates c (s.takeTrain c inEnd) = if (s.channel c).angleGroup = [] then
      [(s.sourceTrain (s.channel c).source).getD inEnd.train] else (s.channel c).angleGroup :=
    if_congr List.isEmpty_iff rfl rfl
  obtain ⟨table, bank, rest⟩ := takeOn_marked hi (takeOut_eq ho) ends
  dsimp only at rest
  rw [asked] at rest
  clear asked
  have yields : ∀ x first last, _ ↔ s.yields inEnd outEnd x first last := fun x first last =>
    Iff.symm (and_congr endOn_some (and_congr endOn_some Iff.rfl))
  simp only [inPhase, outPhase] at yields
  simp only [yields]
  refine ⟨fun full => refuses _ (table full), fun room full => refuses _ (bank room (freeId_none full)),
    fun id room free mine least => ?_⟩
  obtain ⟨empty, committed⟩ := rest id room (freeId_some free mine least)
  generalize (if (s.channel c).angleGroup = [] then [(s.sourceTrain (s.channel c).source).getD inEnd.train]
    else (s.channel c).angleGroup) = trains at *
  refine ⟨fun none => refuses _ (empty (takenAngles_nil.mpr none)), fun yielded => ?_⟩
  have ne : s.takenAngles inEnd outEnd trains ≠ [] := fun nil => by
    obtain ⟨x, hx, first, last, h⟩ := yielded
    exact takenAngles_nil.mp nil x hx first last h
  have done := row.trans ((committed ne).trans (commitTake_eq _))
  obtain ⟨clips, channel, others, frame⟩ := committed_frame (s := s) (c := c)
    (newClip id (primaryOf (s.takeTrain c inEnd) (s.takenAngles inEnd outEnd trains))
      (s.takenAngles inEnd outEnd trains) inEnd outEnd)
  have find := find?_insertClip (k := newClip id (primaryOf (s.takeTrain c inEnd) (s.takenAngles inEnd outEnd trains))
      (s.takenAngles inEnd outEnd trains) inEnd outEnd) (clipOf_none_iff.mp free)
  refine ⟨_, _, accepted_of_done (f := Machine.take) rfl ht done, ?_, fun j other => ?_, ?_, fun x hx => ?_,
    fun g hg => ?_, (primaryOf_eq _ _).1, (primaryOf_eq _ _).2, ?_, rfl, rfl, rfl, rfl, rfl, rfl, rfl, rfl, channel,
    others, fun g hg => committed_reports hg, frame⟩
  · unfold State.clipOf
    rw [clips, find]
    exact if_pos rfl
  · unfold State.clipOf
    rw [clips, find]
    exact if_neg other
  · show ((s.takenAngles inEnd outEnd trains).map (·.train)).Sublist trains
    rw [takenAngles_trains]
    exact List.filter_sublist
  · show x ∈ (s.takenAngles inEnd outEnd trains).map (·.train) ↔ _
    rw [takenAngles_trains, List.mem_filter, Option.isSome_iff_exists]
    constructor
    · rintro ⟨-, g, hg⟩
      obtain ⟨first, last, h, -⟩ := angleFor_some.mp hg
      exact ⟨first, last, h⟩
    · rintro ⟨first, last, h⟩
      exact ⟨hx, _, angleFor_some.mpr ⟨first, last, h, rfl⟩⟩
  · obtain ⟨h, captured⟩ := mem_takenAngles hg
    refine ⟨h, ?_, ?_, ?_⟩
    · rw [captured]; rfl
    · rw [captured]; rfl
    · rw [← holed_iff, captured]
      exact Iff.rfl
  · refine clipStateOf_taken ne fun g hg => ?_
    obtain ⟨-, captured⟩ := mem_takenAngles hg
    rw [captured]
    exact ⟨rfl, rfl⟩

end Sys2Proof.Machine
end

section
/-! Clips removed (R142 to R144, R173): what becomes of the table, the play queues, the run log and the reports when
clips go one after the other. -/

namespace Sys2Proof.Machine

/-! ## Lists sorted by a key -/

section sorted

variable {α : Type} {f : α → Nat} {l : List α}

/-- In a list sorted by a key, what lies below key m + 1 is what lies below m and then what lies at m. -/
theorem filter_below_succ (sorted : l.Pairwise fun a b => f a ≤ f b) (p : α → Bool) (m : Nat) :
    l.filter (fun a => decide (f a < m + 1) && p a) =
      l.filter (fun a => decide (f a < m) && p a) ++ l.filter fun a => f a == m && p a := by
  induction l with
  | nil => rfl
  | cons a rest ih =>
    obtain ⟨above, later⟩ := List.pairwise_cons.mp sorted
    rw [List.filter_cons, List.filter_cons, List.filter_cons, ih later]
    rcases Nat.lt_trichotomy (f a) m with below | same | past
    · have ne : ¬f a = m := by omega
      simp only [show f a < m + 1 by omega, below, decide_true, Bool.true_and, beq_eq_false_iff_ne.mpr ne,
        Bool.false_and]
      split <;> simp
    · have none : rest.filter (fun a => decide (f a < m) && p a) = [] := by
        refine List.filter_eq_nil_iff.mpr fun b hb => ?_
        have := above b hb
        simp
        omega
      simp [same, none]
    · simp [show ¬f a < m + 1 by omega, show ¬f a < m by omega, show ¬f a = m by omega]

/-- A list sorted by a key below n is its parts key by key. -/
theorem filter_eq_flatMap (sorted : l.Pairwise fun a b => f a ≤ f b) (p : α → Bool) (n : Nat) :
    l.filter (fun a => decide (f a < n) && p a) = (List.range n).flatMap fun m => l.filter fun a => f a == m && p a := by
  induction n with
  | zero => simp
  | succ n ih => rw [filter_below_succ sorted, List.range_succ, List.flatMap_append, ← ih]; simp

end sorted

/-! ## Clips taken out of the table -/

/-- The entries of a run log for the queue entries of a channel that name a clip (R173). -/
def State.namedOn (s : State) (k : Clip) (c : ChannelId) : List RunEntry :=
  ((s.queue c).entries.filter fun e => e.clip == k.id).map fun e =>
    ⟨c, k.id, ((k.angles[e.angle.getD k.primary]?).map (·.train)).getD 0, .skippedDeleted, none, none, 0⟩

/-- The run log entries of the queue entries that name a clip, channel by channel (R173). -/
def State.naming (s : State) (k : Clip) : List RunEntry := allChannels.flatMap (s.namedOn k)

/-- The number of entries in all queues. -/
def State.queued (s : State) : Nat := (allChannels.map fun c => (s.queue c).entries.length).sum

/-- The state without the clips and the queue entries whose ids are dead, with notes made. -/
def State.without (s : State) (dead : Nat → Bool) (notes : List Note) : State :=
  { s with
    clips := s.clips.filter fun d => !dead d.id
    queues := s.queues.map fun q => { q with entries := q.entries.filter fun e => !dead e.clip }
    runLog := (s.noted notes).runLog
    reports := (s.noted notes).reports }

section without

variable {s : State} {dead : Nat → Bool} {notes : List Note}

theorem without_queue (c : ChannelId) : (s.without dead notes).queue c =
    { s.queue c with entries := (s.queue c).entries.filter fun e => !dead e.clip } := by
  simp [State.without, State.queue]

/-- Removals one after the other are one removal. -/
theorem without_without (dead' : Nat → Bool) (more : List Note) :
    (s.without dead notes).without dead' more = s.without (fun id => dead id || dead' id) (notes ++ more) := by
  obtain ⟨log, reports⟩ : ((s.without dead notes).noted more).runLog = (s.noted (notes ++ more)).runLog ∧
      ((s.without dead notes).noted more).reports = (s.noted (notes ++ more)).reports := by
    rw [noted_append]
    refine noted_congr more rfl rfl ?_
    rw [noted_eq s notes]
    rfl
  unfold State.without at *
  simp only [log, reports, List.filter_filter, Vector.map_map, Function.comp_def, Bool.not_or, Bool.and_comm]

theorem without_none (s : State) : s.without (fun _ => false) [] = s := by
  simp [State.without]

/-- Notes alone remove nothing. -/
theorem noted_eq_without (s : State) (l : List Note) : s.noted l = s.without (fun _ => false) l := by
  rw [noted_eq]
  simp [State.without]

theorem without_congr {dead' : Nat → Bool} (h : ∀ id, dead id = dead' id) :
    s.without dead notes = s.without dead' notes := by
  rw [funext h]

/-- The entries that name a clip are not touched by the removal of others. -/
theorem without_naming {k : Clip} (alive : dead k.id = false) : (s.without dead notes).naming k = s.naming k := by
  unfold State.naming State.namedOn
  refine List.flatMap_congr fun c _ => ?_
  rw [without_queue, List.filter_filter]
  congr 1
  refine List.filter_congr fun e _ => ?_
  by_cases same : e.clip = k.id
  · simp [same, alive]
  · simp [same]

end without

/-! ## One clip removed (R142) -/

theorem queues_ext {s t : State} (h : ∀ c, t.queue c = s.queue c) : t.queues = s.queues :=
  Vector.ext fun i hi => h ⟨i, hi⟩

/-- The queue unit told of a removal, channel by channel: the queues, the log and the count (R173). -/
theorem dropNamed_foldl (k : Clip) (cs : List ChannelId) (distinct : cs.Nodup) (s : State) (n : Nat) :
    let r := cs.foldl (State.dropNamed k) (s, n)
    let notes := (cs.flatMap (s.namedOn k)).map Note.entry
    r.1 = { s with queues := r.1.queues, runLog := (s.noted notes).runLog, reports := (s.noted notes).reports } ∧
    (∀ c, r.1.queue c = if c ∈ cs then
      { s.queue c with entries := (s.queue c).entries.filter fun e => e.clip != k.id } else s.queue c) ∧
    r.2 = n + (cs.flatMap (s.namedOn k)).length := by
  induction cs generalizing s n with
  | nil => exact ⟨rfl, fun c => rfl, rfl⟩
  | cons d rest ih =>
    obtain ⟨out, later⟩ := List.nodup_cons.mp distinct
    have logged : (s.namedOn k d).map Note.entry = ((s.queue d).entries.filter fun e => e.clip == k.id).map fun e =>
        Note.entry (skippedEntry d e (k.angles[e.angle.getD k.primary]?) .skippedDeleted) := by
      unfold State.namedOn
      rw [List.map_map]
      refine List.map_congr_left fun e he => ?_
      have same : e.clip = k.id := by simpa using (List.mem_filter.mp he).2
      simp [skippedEntry, same]
    let q : PlayQueue := { s.queue d with entries := (s.queue d).entries.filter fun e => e.clip != k.id }
    let s1 := (s.setQueue d q).noted ((s.namedOn k d).map .entry)
    have step : State.dropNamed k (s, n) d = (s1, n + (s.namedOn k d).length) := by
      unfold State.dropNamed
      dsimp only
      rw [logSkipped_eq_noted, ← logged]
      simp only [State.namedOn, List.length_map, s1, q]
    have queue1 : ∀ c, s1.queue c = if c = d then q else s.queue c := by
      intro c
      show ((s.setQueue d q).noted _).queue c = _
      rw [noted_eq]
      by_cases same : c = d
      · subst same; exact (setQueue_queue_self ..).trans (if_pos rfl).symm
      · exact (setQueue_queue_ne _ _ _ same).trans (if_neg same).symm
    have named1 : rest.flatMap (s1.namedOn k) = rest.flatMap (s.namedOn k) := by
      refine List.flatMap_congr fun c hc => ?_
      have ne : c ≠ d := fun e => out (e ▸ hc)
      unfold State.namedOn
      rw [queue1, if_neg ne]
    obtain ⟨frame, queues, count⟩ := ih later s1 (n + (s.namedOn k d).length)
    rw [named1] at frame count
    rw [List.foldl_cons, step, List.flatMap_cons, List.map_append, List.length_append]
    refine ⟨?_, fun c => ?_, by rw [count]; omega⟩
    · obtain ⟨log, reports⟩ : (s1.noted ((rest.flatMap (s.namedOn k)).map .entry)).runLog =
          (s.noted ((s.namedOn k d).map .entry ++ (rest.flatMap (s.namedOn k)).map .entry)).runLog ∧
          (s1.noted ((rest.flatMap (s.namedOn k)).map .entry)).reports =
          (s.noted ((s.namedOn k d).map .entry ++ (rest.flatMap (s.namedOn k)).map .entry)).reports := by
        show ((((s.setQueue d q).noted _).noted _).runLog = _ ∧ (((s.setQueue d q).noted _).noted _).reports = _)
        rw [← noted_append]
        exact noted_congr _ rfl rfl rfl
      rw [log, reports] at frame
      refine frame.trans ?_
      obtain ⟨l, r, base⟩ : ∃ l r, s1 = { s.setQueue d q with runLog := l, reports := r } := ⟨_, _, noted_eq ..⟩
      generalize (rest.foldl (State.dropNamed k) (s1, n + (s.namedOn k d).length)).1.queues = queues
      rw [base]
      rfl
    · rw [queues c, queue1]
      by_cases same : c = d
      · subst same
        simp [out, q]
      · simp [same]

theorem allChannels_nodup : allChannels.Nodup := by decide

/-- Entries split by name: those that stay, and those logged. -/
theorem naming_queued (s : State) (k : Clip) (notes : List Note) :
    (s.naming k).length + (s.without (· == k.id) notes).queued = s.queued := by
  have each : ∀ cs : List ChannelId, (cs.flatMap (s.namedOn k)).length +
      (cs.map fun c => ((s.without (· == k.id) notes).queue c).entries.length).sum =
      (cs.map fun c => (s.queue c).entries.length).sum := by
    intro cs
    induction cs with
    | nil => rfl
    | cons c rest ih =>
      have split := List.length_eq_length_filter_add (l := (s.queue c).entries) fun e => e.clip == k.id
      have one : (s.namedOn k c).length = ((s.queue c).entries.filter fun e => e.clip == k.id).length :=
        List.length_map ..
      simp only [List.flatMap_cons, List.length_append, List.map_cons, List.sum_cons, without_queue, one] at ih ⊢
      omega
  exact each allChannels

/-- A clip removed: its entries go and are logged, and its record goes (R142, R173). -/
theorem removeClip_eq (s : State) (k : Clip) :
    (s.removeClip k).1 = s.without (· == k.id) ((s.naming k).map .entry) ∧ (s.removeClip k).2 = (s.naming k).length := by
  obtain ⟨frame, queues, count⟩ := dropNamed_foldl k allChannels allChannels_nodup
    { s with clips := s.clips.filter fun d => d.id != k.id } 0
  refine ⟨?_, by rw [Nat.zero_add] at count; exact count⟩
  refine Eq.trans frame ?_
  obtain ⟨log, reports⟩ := noted_congr (s := s) (t := { s with clips := s.clips.filter fun d => d.id != k.id })
    ((s.naming k).map .entry) rfl rfl rfl
  have same : ∀ c, (s.removeClip k).1.queue c = (s.without (· == k.id) ((s.naming k).map .entry)).queue c := by
    intro c
    refine (queues c).trans ?_
    rw [if_pos (mem_allChannels c), without_queue]
    rfl
  have parts : (s.removeClip k).1.queues = _ := queues_ext same
  refine Eq.trans ?_ (congrArg (fun q => { s.without (· == k.id) ((s.naming k).map .entry) with queues := q })
    parts)
  refine Eq.trans ?_ (congrArg₂ (fun l r => ({ s with
    clips := s.clips.filter fun d => d.id != k.id
    queues := (s.removeClip k).1.queues, runLog := l, reports := r } : State)) log reports)
  rfl

/-! ## The clips a clear visits (R143) -/

/-- A clip a clear keeps: it is HELD or in use (R143). -/
def State.keepsClip (s : State) (d : Clip) : Bool := decide (d.lock = .held) || !(s.users d.id).isEmpty

theorem clearVisit_kept {s : State} {n : ClearCounts} {k : Clip} (h : s.keepsClip k = true) :
    clearVisit (s, n) k = (s, { n with kept := n.kept + 1 }) := by
  unfold clearVisit
  exact if_pos (by simpa [State.keepsClip] using h)

theorem clearVisit_removed {s : State} {n : ClearCounts} {k : Clip} (h : s.keepsClip k = false) :
    clearVisit (s, n) k = (s.without (· == k.id) ((s.naming k).map .entry),
      { n with removed := n.removed + 1, entries := n.entries + (s.naming k).length }) := by
  obtain ⟨state, count⟩ := removeClip_eq s k
  unfold clearVisit
  rw [if_neg (by simpa [State.keepsClip] using h)]
  dsimp only
  rw [state, count]

/-- The clips visited one after the other: those not kept go (R143). -/
theorem clearVisit_foldl (ks : List Clip) (distinct : ks.Pairwise fun a b => a.id ≠ b.id) (s : State) (n : ClearCounts) :
    let r := ks.foldl clearVisit (s, n)
    r.1 = s.without (fun id => ks.any fun d => d.id == id && !s.keepsClip d)
      (((ks.filter fun d => !s.keepsClip d).flatMap s.naming).map .entry) ∧
    r.2.removed = n.removed + ks.countP (fun d => !s.keepsClip d) ∧ r.2.kept = n.kept + ks.countP s.keepsClip ∧
    r.2.entries + r.1.queued = n.entries + s.queued := by
  induction ks generalizing s n with
  | nil => exact ⟨(without_none s).symm, rfl, rfl, rfl⟩
  | cons k rest ih =>
    obtain ⟨apart, later⟩ := List.pairwise_cons.mp distinct
    dsimp only
    rw [List.foldl_cons]
    by_cases kept : s.keepsClip k = true
    · obtain ⟨state, removed, keeps, entries⟩ := ih later s { n with kept := n.kept + 1 }
      rw [clearVisit_kept kept]
      refine ⟨?_, ?_, ?_, entries⟩
      · rw [state]
        simp [kept]
      · rw [removed]; simp [kept]
      · rw [keeps]; simp [kept]; omega
    · rw [Bool.not_eq_true] at kept
      rw [clearVisit_removed kept]
      obtain ⟨state, removed, keeps, entries⟩ := ih later (s.without (· == k.id) ((s.naming k).map .entry))
        { n with removed := n.removed + 1, entries := n.entries + (s.naming k).length }
      have same : (s.without (· == k.id) ((s.naming k).map .entry)).keepsClip = s.keepsClip := rfl
      have names : ((rest.filter fun d => !s.keepsClip d).flatMap
          (s.without (· == k.id) ((s.naming k).map .entry)).naming) =
          (rest.filter fun d => !s.keepsClip d).flatMap s.naming := by
        refine List.flatMap_congr fun d hd => without_naming ?_
        simpa using (apart d (List.mem_of_mem_filter hd)).symm
      simp only [same, names] at state removed keeps
      refine ⟨?_, ?_, ?_, ?_⟩
      · rw [state, without_without]
        simp only [List.filter_cons, kept, Bool.not_false, if_true, List.flatMap_cons, List.map_append, List.any_cons,
          Bool.and_true]
        exact without_congr fun id => by rw [Bool.beq_comm]
      · rw [removed]; simp [kept]; omega
      · rw [keeps]; simp [kept]
      · have split := naming_queued s k ((s.naming k).map .entry)
        rw [entries]
        dsimp only
        omega

end Sys2Proof.Machine
end

section
/-! DELETE_CLIP, CLEAR_BANK and CLEAR_ALL (R142 to R144): the clips that go, bank by bank, and what is answered. -/

namespace Sys2Proof.Machine

/-! ## Notes of several removals -/

theorem bodiesOf_append {size : Nat} (bound : size ≤ 256) (l m : List Note) : bodiesOf size (l ++ m) =
    bodiesOf size l ++ bodiesOf (min 256 (size + (entriesOf l).length)) m := by
  induction l generalizing size with
  | nil => simp [entriesOf, bodiesOf, Nat.min_eq_right bound]
  | cons n rest ih =>
    cases n with
    | report b => exact congrArg (b :: ·) (ih bound)
    | entry e =>
      refine congrArg (_ :: ·) ((ih (Nat.min_le_left ..)).trans ?_)
      have size' : min 256 (min 256 (size + 1) + (entriesOf rest).length) =
          min 256 (size + (entriesOf (.entry e :: rest)).length) := by
        simp only [entriesOf, List.length_cons]
        omega
      rw [size']
      rfl

theorem entriesOf_flatMap {α : Type} (g : α → List Note) (l : List α) :
    entriesOf (l.flatMap g) = l.flatMap fun a => entriesOf (g a) := by
  induction l with
  | nil => rfl
  | cons a rest ih => simp [List.flatMap_cons, entriesOf_append, ih]

/-- The reports of notes made part by part, each part from the size the parts before have left. -/
theorem bodiesOf_flatMap {size : Nat} (bound : size ≤ 256) (g : Nat → List Note) (n : Nat) :
    bodiesOf size ((List.range n).flatMap g) = (List.range n).flatMap fun m =>
      bodiesOf (min 256 (size + (entriesOf ((List.range m).flatMap g)).length)) (g m) := by
  induction n with
  | zero => rfl
  | succ n ih => simp [List.range_succ, List.flatMap_append, bodiesOf_append bound, ih]

/-! ## What a removal leaves -/

section left

variable {s : State} {gone : Clip → Bool} {dead : Nat → Bool} {notes : List Note}

theorem clip_eq_of_id (law : s.tableLaw) {d k : Clip} (hd : d ∈ s.clips) (hk : k ∈ s.clips) (h : d.id = k.id) :
    d = k := by
  have nodup : (s.clips.map (·.id)).Nodup := law.2.1.imp fun lt => Nat.ne_of_lt lt
  exact List.inj_on_of_nodup_map nodup hd hk h

theorem clips_sorted (law : s.tableLaw) : s.clips.Pairwise fun a b => a.id < b.id := List.pairwise_map.mp law.2.1

/-- The log of clips gone, in table order (R173). -/
def State.goneLog (s : State) (gone : Clip → Bool) : List RunEntry := (s.clips.filter gone).flatMap s.naming

/-- A removal as its statement has it: the clips gone with their entries, and everything else as it was. -/
theorem without_left (law : s.tableLaw) (ids : ∀ id, dead id = s.clips.any fun d => d.id == id && gone d)
    (log : entriesOf notes = s.goneLog gone) {n : Nat} (count : n + (s.without dead notes).queued = s.queued) :
    let t := s.without dead notes
    (s.runLog.entries.length ≤ 256 → s.logged t (s.goneLog gone)) ∧
      t.clips = s.clips.filter (fun d => !gone d) ∧
      (∀ c, t.queue c = { s.queue c with
        entries := (s.queue c).entries.filter fun e => !s.clips.any fun d => d.id == e.clip && gone d }) ∧
      n + (allChannels.map fun c => (t.queue c).entries.length).sum =
        (allChannels.map fun c => (s.queue c).entries.length).sum ∧
      s.keepsStore t ∧ t.channels = s.channels ∧ t.panels = s.panels ∧ t.guards = s.guards ∧ s.keepsFaults t ∧
      s.keepsLinks t ∧ t.freeReads = s.freeReads := by
  refine ⟨fun size => ?_, ?_, fun c => ?_, count, ⟨rfl, rfl, rfl, rfl⟩, rfl, rfl, rfl, ⟨rfl, rfl⟩,
    ⟨rfl, rfl, rfl, rfl, rfl, rfl, rfl⟩, rfl⟩
  · rw [← log]
    exact noted_logged notes size
  · refine List.filter_congr fun d hd => ?_
    rw [ids, Bool.not_inj_iff, Bool.eq_iff_iff, List.any_eq_true]
    constructor
    · rintro ⟨k, hk, h⟩
      rw [Bool.and_eq_true, beq_iff_eq] at h
      rw [← clip_eq_of_id law hk hd h.1]
      exact h.2
    · exact fun h => ⟨d, hd, by simp [h]⟩
  · rw [without_queue]
    simp only [ids]

theorem without_raised (size : s.runLog.entries.length ≤ 256) :
    s.raised (s.without dead notes) (bodiesOf s.runLog.entries.length notes) := noted_raised notes size

theorem without_raise (b : ReportBody) :
    (s.without dead notes).raise b = s.without dead (notes ++ [.report b]) := by
  have h := noted_eq_without (s.without dead notes) [.report b]
  rw [without_without] at h
  exact h.trans (without_congr fun id => Bool.or_false _)

end left

/-! ## One bank -/

section bank

variable {s : State}

theorem bank_countP (bank : Nat) (p : Clip → Bool) :
    (s.bankClips bank).countP p = s.clips.countP fun d => d.id / 64 == bank && p d := by
  rw [State.bankClips, List.countP_filter]
  simp only [Bool.and_comm]

theorem bank_filter (bank : Nat) (p : Clip → Bool) :
    (s.bankClips bank).filter p = s.clips.filter fun d => d.id / 64 == bank && p d := by
  rw [State.bankClips, List.filter_filter]
  simp only [Bool.and_comm]

theorem bank_any (bank id : Nat) (p : Clip → Bool) : ((s.bankClips bank).any fun d => d.id == id && p d) =
    s.clips.any fun d => d.id == id && (d.id / 64 == bank && p d) := by
  rw [State.bankClips, List.any_filter]
  refine congrArg (List.any s.clips) (funext fun d => ?_)
  cases d.id / 64 == bank <;> cases d.id == id <;> rfl

/-- The reports of a bank cleared: one where a clip went (R143). -/
def State.bankReports (s : State) (bank : Nat) (gone : Clip → Bool) : List ReportBody :=
  if s.clips.any fun d => d.id / 64 == bank && gone d then
    [.bankCleared bank (s.clips.countP fun d => d.id / 64 == bank && !s.keepsClip d)
      (s.clips.countP fun d => d.id / 64 == bank && s.keepsClip d)] else []

/-- The notes of a bank cleared: the entries of the clips that go, and the report (R143, R173). -/
def State.bankNotes (s : State) (bank : Nat) (gone : Clip → Bool) : List Note :=
  (s.goneLog fun d => d.id / 64 == bank && gone d).map .entry ++ (s.bankReports bank gone).map .report

/-- What clearing a bank leaves (R143). -/
theorem clearBank_eq (sorted : s.clips.Pairwise fun a b => a.id < b.id) (bank : Nat) :
    let gone := fun d => !s.keepsClip d
    let r := s.clearBank bank
    r.1 = s.without (fun id => s.clips.any fun d => d.id == id && (d.id / 64 == bank && gone d))
        (s.bankNotes bank gone) ∧
      r.2.removed = s.clips.countP (fun d => d.id / 64 == bank && gone d) ∧
      r.2.kept = s.clips.countP (fun d => d.id / 64 == bank && s.keepsClip d) ∧
      r.2.entries + r.1.queued = s.queued := by
  have distinct : (s.bankClips bank).Pairwise fun a b => a.id ≠ b.id :=
    (sorted.sublist List.filter_sublist).imp fun lt => Nat.ne_of_lt lt
  obtain ⟨state, removed, kept, entries⟩ := clearVisit_foldl (s.bankClips bank) distinct s ⟨0, 0, 0⟩
  rw [bank_filter] at state
  rw [bank_countP, Nat.zero_add] at removed kept
  rw [Nat.zero_add] at entries
  simp only [bank_any] at state
  have some : (0 < s.clips.countP fun d => d.id / 64 == bank && !s.keepsClip d) ↔
      (s.clips.any fun d => d.id / 64 == bank && !s.keepsClip d) = true := by
    rw [List.countP_pos_iff, List.any_eq_true]
  have raised : (s.clearBank bank).1 = s.without (fun id => s.clips.any fun d => d.id == id &&
      (d.id / 64 == bank && !s.keepsClip d)) (s.bankNotes bank fun d => !s.keepsClip d) := by
    unfold State.clearBank State.bankNotes State.bankReports
    dsimp only
    rw [removed, kept, state]
    by_cases any : (s.clips.any fun d => d.id / 64 == bank && !s.keepsClip d) = true
    · rw [if_pos (some.mpr any), if_pos any, without_raise]
      rfl
    · rw [if_neg (mt some.mp any), if_neg any, List.map_nil, List.append_nil]
      rfl
  refine ⟨raised, removed, kept, ?_⟩
  rw [state] at entries
  rw [raised]
  exact entries

theorem bankNotes_entries (bank : Nat) (gone : Clip → Bool) :
    entriesOf (s.bankNotes bank gone) = s.goneLog fun d => d.id / 64 == bank && gone d := by
  rw [State.bankNotes, entriesOf_append, entriesOf_entries, entriesOf_reports, List.append_nil]

/-- A clip CLEAR_ALL keeps: its bank is guarded, or a clear keeps it (R144). -/
def State.spares (s : State) (d : Clip) : Bool := s.guards.toList.getD (d.id / 64) false || s.keepsClip d

theorem guard_eq (bank : Fin 16) : s.guards.toList.getD bank.val false = s.guards[bank.val] := by
  simp [List.getD]

theorem bank_and_congr {bank : Nat} {p q : Clip → Bool} (h : ∀ d, d.id / 64 = bank → p d = q d) :
    (fun d : Clip => d.id / 64 == bank && p d) = fun d => d.id / 64 == bank && q d := by
  refine funext fun d => ?_
  by_cases mine : d.id / 64 = bank
  · rw [h d mine]
  · rw [beq_eq_false_iff_ne.mpr mine, Bool.false_and, Bool.false_and]

/-- One bank visited by CLEAR_ALL (R144). -/
theorem clearAllVisit_eq (sorted : s.clips.Pairwise fun a b => a.id < b.id) (n : ClearAllCounts) (bank : Fin 16) :
    let gone := fun d => !s.spares d
    let r := clearAllVisit (s, n) bank
    r.1 = s.without (fun id => s.clips.any fun d => d.id == id && (d.id / 64 == bank.val && gone d))
        (s.bankNotes bank.val gone) ∧
      r.2.removed = n.removed + s.clips.countP (fun d => d.id / 64 == bank.val && gone d) ∧
      r.2.kept = n.kept + s.clips.countP (fun d => d.id / 64 == bank.val && s.spares d) ∧
      r.2.passedOver = n.passedOver + (if s.guards[bank.val] then 1 else 0) ∧
      r.2.entries + r.1.queued = n.entries + s.queued := by
  by_cases guarded : s.guards[bank.val] = true
  · have all : ∀ d : Clip, d.id / 64 = bank.val → s.spares d = true := fun d mine => by
      rw [State.spares, mine, guard_eq, guarded, Bool.true_or]
    have none : (fun d : Clip => d.id / 64 == bank.val && !s.spares d) = fun _ => false := funext fun d => by
      by_cases mine : d.id / 64 = bank.val
      · simp [all d mine]
      · simp [mine]
    have quiet : s.bankNotes bank.val (fun d => !s.spares d) = [] := by
      simp [State.bankNotes, State.bankReports, State.goneLog, none]
    have visit : clearAllVisit (s, n) bank = (s, { n with
        kept := n.kept + (s.bankClips bank.val).length, passedOver := n.passedOver + 1 }) := if_pos guarded
    have whole : (s.bankClips bank.val).length = s.clips.countP fun d => d.id / 64 == bank.val && s.spares d := by
      rw [← bank_countP, List.countP_eq_length.mpr]
      intro d hd
      exact all d (by simpa using (List.mem_filter.mp hd).2)
    dsimp only
    rw [visit, quiet, none, whole]
    refine ⟨(without_none s).symm.trans (without_congr fun id => ?_), by simp, rfl, by rw [if_pos guarded], rfl⟩
    have dead := fun d => congrFun none d
    simp [dead]
  · obtain ⟨state, removed, kept, entries⟩ := clearBank_eq sorted bank.val
    have open' : ∀ d : Clip, d.id / 64 = bank.val → s.spares d = s.keepsClip d := fun d mine => by
      rw [State.spares, mine, guard_eq, (Bool.not_eq_true _).mp guarded, Bool.false_or]
    have gone : (fun d : Clip => d.id / 64 == bank.val && !s.spares d) =
        fun d => d.id / 64 == bank.val && !s.keepsClip d :=
      bank_and_congr fun d mine => by rw [open' d mine]
    have notes : s.bankNotes bank.val (fun d => !s.spares d) = s.bankNotes bank.val fun d => !s.keepsClip d := by
      unfold State.bankNotes State.bankReports
      rw [gone]
    have visit : clearAllVisit (s, n) bank = ((s.clearBank bank.val).1, { n with
        removed := n.removed + (s.clearBank bank.val).2.removed, kept := n.kept + (s.clearBank bank.val).2.kept
        entries := n.entries + (s.clearBank bank.val).2.entries }) := if_neg guarded
    dsimp only
    rw [visit, notes, bank_and_congr open', gone]
    refine ⟨state.trans (without_congr fun id => ?_), by rw [removed], by rw [kept], by rw [if_neg guarded]; rfl, ?_⟩
    · exact congrArg (List.any s.clips) (funext fun d => by rw [congrFun gone d])
    · dsimp only
      omega

end bank

/-! ## All banks -/

section banks

/-- Clips of other banks are not touched by a removal within one bank. -/
theorem without_bank {s : State} {bank bank' : Nat} {gone : Clip → Bool} (ne : bank ≠ bank') (notes : List Note)
    (p : Clip → Bool) :
    let s1 := s.without (fun id => s.clips.any fun d => d.id == id && (d.id / 64 == bank && gone d)) notes
    (s1.clips.filter fun d => d.id / 64 == bank' && p d) = (s.clips.filter fun d => d.id / 64 == bank' && p d) ∧
      s1.goneLog (fun d => d.id / 64 == bank' && p d) = s.goneLog fun d => d.id / 64 == bank' && p d := by
  have alive : ∀ k : Clip, k.id / 64 = bank' →
      (s.clips.any fun d => d.id == k.id && (d.id / 64 == bank && gone d)) = false := by
    intro k mine
    rw [List.any_eq_false]
    intro d hd
    by_cases same : d.id = k.id
    · simp [same, mine, ne.symm]
    · simp [same]
  dsimp only
  have clips : ((s.without (fun id => s.clips.any fun d => d.id == id && (d.id / 64 == bank && gone d))
      notes).clips.filter fun d => d.id / 64 == bank' && p d) =
      s.clips.filter fun d => d.id / 64 == bank' && p d := by
    refine (List.filter_filter ..).trans (List.filter_congr fun d hd => ?_)
    by_cases mine : d.id / 64 = bank'
    · dsimp only
      rw [alive d mine]
      simp
    · simp [mine]
  refine ⟨clips, ?_⟩
  unfold State.goneLog
  rw [clips]
  refine List.flatMap_congr fun k hk => without_naming (alive k ?_)
  have := (List.mem_filter.mp hk).2
  simp only [Bool.and_eq_true, beq_iff_eq] at this
  exact this.1

/-- Banks visited one after the other by CLEAR_ALL (R144). -/
theorem clearAllVisit_foldl (banks : List (Fin 16)) (distinct : banks.Nodup) (s : State)
    (sorted : s.clips.Pairwise fun a b => a.id < b.id) (n : ClearAllCounts) :
    let gone := fun d => !s.spares d
    let r := banks.foldl clearAllVisit (s, n)
    r.1 = s.without (fun id => banks.any fun b => s.clips.any fun d => d.id == id && (d.id / 64 == b.val && gone d))
        (banks.flatMap fun b => s.bankNotes b.val gone) ∧
      r.2.removed = n.removed + (banks.map fun b => s.clips.countP fun d => d.id / 64 == b.val && gone d).sum ∧
      r.2.kept = n.kept + (banks.map fun b => s.clips.countP fun d => d.id / 64 == b.val && s.spares d).sum ∧
      r.2.passedOver = n.passedOver + banks.countP (fun b => s.guards[b.val]) ∧
      r.2.entries + r.1.queued = n.entries + s.queued := by
  induction banks generalizing s n with
  | nil => exact ⟨(without_none s).symm, rfl, rfl, rfl, rfl⟩
  | cons bank rest ih =>
    obtain ⟨out, later⟩ := List.nodup_cons.mp distinct
    obtain ⟨state, removed, kept, passed, entries⟩ := clearAllVisit_eq sorted n bank
    dsimp only at state removed kept passed entries ⊢
    rw [List.foldl_cons]
    generalize clearAllVisit (s, n) bank = r at state removed kept passed entries ⊢
    obtain ⟨s1, m⟩ := r
    dsimp only at state removed kept passed entries
    have sorted1 : s1.clips.Pairwise fun a b => a.id < b.id := by
      rw [state]
      exact sorted.sublist List.filter_sublist
    obtain ⟨state', removed', kept', passed', entries'⟩ := ih later s1 sorted1 m
    have spares : s1.spares = s.spares := by rw [state]; rfl
    have keeps : s1.keepsClip = s.keepsClip := by rw [state]; rfl
    have guards : s1.guards = s.guards := by rw [state]; rfl
    have others : ∀ b ∈ rest, ∀ p : Clip → Bool,
        (s1.clips.filter fun d => d.id / 64 == b.val && p d) = (s.clips.filter fun d => d.id / 64 == b.val && p d) ∧
        s1.goneLog (fun d => d.id / 64 == b.val && p d) = s.goneLog fun d => d.id / 64 == b.val && p d := by
      intro b hb p
      rw [state]
      exact without_bank (fun same => out (by rw [Fin.ext same]; exact hb)) _ p
    have counts : ∀ b ∈ rest, ∀ p : Clip → Bool,
        (s1.clips.countP fun d => d.id / 64 == b.val && p d) = s.clips.countP fun d => d.id / 64 == b.val && p d := by
      intro b hb p
      rw [List.countP_eq_length_filter, List.countP_eq_length_filter, (others b hb p).1]
    have anys : ∀ b ∈ rest, ∀ p : Clip → Bool,
        (s1.clips.any fun d => d.id / 64 == b.val && p d) = s.clips.any fun d => d.id / 64 == b.val && p d := by
      intro b hb p
      rw [Bool.eq_iff_iff, List.any_eq_true, List.any_eq_true]
      have same := (others b hb p).1
      constructor
      · rintro ⟨d, hd, h⟩
        have := same ▸ List.mem_filter.mpr ⟨hd, h⟩
        exact ⟨d, List.mem_of_mem_filter this, h⟩
      · rintro ⟨d, hd, h⟩
        have := same.symm ▸ List.mem_filter.mpr ⟨hd, h⟩
        exact ⟨d, List.mem_of_mem_filter this, h⟩
    have notes : (rest.flatMap fun b => s1.bankNotes b.val fun d => !s.spares d) =
        rest.flatMap fun b => s.bankNotes b.val fun d => !s.spares d := by
      refine List.flatMap_congr fun b hb => ?_
      unfold State.bankNotes State.bankReports
      rw [keeps, (others b hb _).2, anys b hb, counts b hb, counts b hb]
    have dead : ∀ id, (rest.any fun b => s1.clips.any fun d => d.id == id && (d.id / 64 == b.val && !s.spares d)) =
        rest.any fun b => s.clips.any fun d => d.id == id && (d.id / 64 == b.val && !s.spares d) := by
      intro id
      rw [Bool.eq_iff_iff, List.any_eq_true, List.any_eq_true]
      refine exists_congr fun b => and_congr_right fun hb => ?_
      have same := anys b hb fun d => d.id == id && !s.spares d
      rw [← Bool.eq_iff_iff]
      have swap : (fun d : Clip => d.id == id && (d.id / 64 == b.val && !s.spares d)) =
          fun d => d.id / 64 == b.val && (d.id == id && !s.spares d) :=
        funext fun d => Bool.and_left_comm ..
      rw [swap]
      exact same
    rw [spares] at state' removed' kept'
    rw [List.map_congr_left fun b hb => counts b hb _] at removed' kept'
    rw [guards] at passed'
    refine ⟨state'.trans ?_, ?_, ?_, ?_, ?_⟩
    · rw [notes, without_congr dead, state, without_without]
      exact without_congr fun id => by rw [List.any_cons]
    · rw [removed', removed, List.map_cons, List.sum_cons, Nat.add_assoc]
    · rw [kept', kept, List.map_cons, List.sum_cons, Nat.add_assoc]
    · rw [passed', passed, List.countP_cons]
      omega
    · omega

end banks

/-! ## The three commands -/

section commands

variable {s : State}

theorem mem_of_clipOf {id : Nat} {k : Clip} (h : s.clipOf id = some k) : k ∈ s.clips := List.mem_of_find?_eq_some h

theorem users_isEmpty {id : Nat} : (s.users id).isEmpty = true ↔ ∀ c i, (s.channel c).source ≠ .clip id i := by
  rw [List.isEmpty_iff, List.eq_nil_iff_forall_not_mem]
  simp [mem_users]

/-- The one clip with an id. -/
theorem filter_id (law : s.tableLaw) {k : Clip} (hk : k ∈ s.clips) : (s.clips.filter fun d => d.id == k.id) = [k] := by
  have same : ∀ d ∈ s.clips, (d.id == k.id) = true → d = k := fun d hd h =>
    clip_eq_of_id law hd hk (by simpa using h)
  have all : (s.clips.filter fun d => d.id == k.id) = List.replicate _ k := List.eq_replicate_of_mem fun d hd => by
    obtain ⟨hd, h⟩ := List.mem_filter.mp hd
    exact same d hd h
  have nodup : (s.clips.filter fun d => d.id == k.id).Nodup :=
    ((clips_sorted law).imp fun lt e => by subst e; exact absurd lt (lt_irrefl _)).sublist List.filter_sublist
  have mem : k ∈ s.clips.filter fun d => d.id == k.id := List.mem_filter.mpr ⟨hk, by simp⟩
  rcases h : s.clips.filter (fun d => d.id == k.id) with _ | ⟨a, _ | ⟨b, rest⟩⟩
  · rw [h] at mem; cases mem
  · rw [h] at mem
    obtain rfl := List.mem_singleton.mp mem
    exact h
  · rw [h] at all nodup
    obtain ⟨rfl, rest'⟩ := List.cons.inj (all.trans List.replicate_succ)
    obtain ⟨rfl, -⟩ := List.cons.inj (rest'.trans List.replicate_succ)
    simp at nodup

/-- A clip deleted: what goes, what is logged and what is reported (R142). -/
theorem deleteOn_done (law : s.tableLaw) {k : Clip} (hk : k ∈ s.clips) (free : k.lock = .unlocked)
    (unused : ∀ c i, (s.channel c).source ≠ .clip k.id i) :
    ∃ t n, deleteOn k s = .done t (.deleted n) ∧ n + t.queued = s.queued ∧
      t = s.without (· == k.id) ((s.goneLog fun d => d.id == k.id).map .entry ++
        [ReportBody.deleted k.id (k.id / 64) k.state n].map .report) := by
  obtain ⟨state, count⟩ := removeClip_eq s k
  have log : s.goneLog (fun d => d.id == k.id) = s.naming k := by
    unfold State.goneLog
    rw [filter_id law hk, List.flatMap_singleton]
  have done : deleteOn k s = .done ((s.removeClip k).1.raise (.deleted k.id (k.id / 64) k.state (s.removeClip k).2))
      (.deleted (s.removeClip k).2) := by
    unfold deleteOn
    rw [if_neg (by simp [free]), if_neg (by simpa using List.isEmpty_iff.mp (users_isEmpty.mpr unused))]
  rw [state, count, without_raise] at done
  exact ⟨_, _, done, naming_queued s k _, by rw [log]; rfl⟩

theorem allBanks_eq : allBanks.map (·.val) = List.range 16 := rfl

/-- A sum over the banks of what each holds is what the table holds. -/
theorem banks_countP (law : s.tableLaw) (p : Clip → Bool) :
    (allBanks.map fun b => s.clips.countP fun d => d.id / 64 == b.val && p d).sum = s.clips.countP p := by
  have sorted : s.clips.Pairwise fun a b => a.id / 64 ≤ b.id / 64 :=
    (clips_sorted law).imp fun lt => Nat.div_le_div_right lt.le
  have whole : s.clips.filter p = s.clips.filter fun d => decide (d.id / 64 < 16) && p d :=
    List.filter_congr fun d hd => by
      have := law.2.2.1 d hd
      simp [show d.id / 64 < 16 by omega]
  have parts := filter_eq_flatMap (f := fun d : Clip => d.id / 64) sorted p 16
  rw [List.countP_eq_length_filter, whole, parts, List.length_flatMap, ← allBanks_eq, List.map_map]
  simp only [List.countP_eq_length_filter, Function.comp_def]

theorem banks_guarded : allBanks.countP (fun b => s.guards[b.val]) = s.guards.toList.count true := by
  have list : allBanks.map (fun b => s.guards[b.val]) = s.guards.toList := by
    refine List.ext_getElem (by simp [allBanks]) fun i h _ => ?_
    have lt : i < 16 := by simpa [allBanks] using h
    have banks : allBanks = List.finRange 16 := rfl
    simp [banks]
  rw [← list, List.count, List.countP_map]
  refine congrArg (List.countP · allBanks) (funext fun b => ?_)
  simp

end commands

/-- Settles O39: each command as a removal of clips, with its notes. -/
theorem clipsRemoved : Obligations.ClipsRemoved := by
  intro tag u s law
  have sorted := clips_sorted law
  refine ⟨fun w k hw clip ht => ?_, fun b bank hb ht => ?_, fun ht => ?_⟩
  · have row : deleteClip w s = deleteOn k s := onClip_of_held hw clip
    have id := clipOf_id clip
    refine ⟨fun held => turnedAway_of_refuse (f := deleteClip) rfl ht (row.trans (if_pos held)),
      fun free used => turnedAway_of_refuse (f := deleteClip) rfl ht (row.trans ?_), fun free unused => ?_⟩
    · obtain ⟨c, i, src⟩ := used
      have busy : (s.users k.id).isEmpty = false := by
        rw [← Bool.not_eq_true, users_isEmpty, id]
        exact fun h => h c i src
      unfold deleteOn
      rw [if_neg (by simp [free]), busy]
      rfl
    · rw [← id] at unused ⊢
      have hk := mem_of_clipOf clip
      obtain ⟨t, n, done, count, rfl⟩ := deleteOn_done law hk free unused
      refine ⟨_, n, accepted_of_done (f := deleteClip) rfl ht (row.trans done), without_left law (fun j => ?_) ?_ count,
        fun size => ?_⟩
      · rw [Bool.eq_iff_iff, List.any_eq_true]
        constructor
        · intro h
          exact ⟨k, hk, by simpa using (beq_iff_eq.mp h).symm⟩
        · rintro ⟨d, -, h⟩
          rw [Bool.and_eq_true, beq_iff_eq, beq_iff_eq] at h
          rw [← h.1, h.2, beq_self_eq_true]
      · rw [entriesOf_append, entriesOf_entries, entriesOf_reports, List.append_nil]
      · have raised := without_raised (s := s) (dead := (· == k.id)) (notes := (s.goneLog fun d => d.id == k.id).map
          .entry ++ [ReportBody.deleted k.id (k.id / 64) k.state n].map .report) size
        rw [bodiesOf_entries_reports] at raised
        exact raised
  · have row : clearBank b s = clearBankOn bank s := onBank_of_named hb _ s
    refine ⟨fun guarded => turnedAway_of_refuse (f := clearBank) rfl ht (row.trans (if_pos guarded)), fun open' => ?_⟩
    obtain ⟨state, removed, kept, entries⟩ := clearBank_eq sorted bank.val
    have done : clearBankOn bank s = .done (s.clearBank bank.val).1
        (.bankCleared (s.clearBank bank.val).2.removed (s.clearBank bank.val).2.kept (s.clearBank bank.val).2.entries) :=
      if_neg (by simp [open'])
    rw [removed, kept] at done
    rw [state] at done entries
    refine ⟨_, _, accepted_of_done (f := clearBank) rfl ht (row.trans done), without_left law (fun _ => rfl)
      (bankNotes_entries _ _) entries, fun size => ?_⟩
    have raised := without_raised (s := s) (dead := fun id => s.clips.any fun d => d.id == id &&
      (d.id / 64 == bank.val && !s.keepsClip d)) (notes := s.bankNotes bank.val fun d => !s.keepsClip d) size
    rw [State.bankNotes, bodiesOf_entries_reports] at raised
    exact raised
  · obtain ⟨state, removed, kept, passed, entries⟩ := clearAllVisit_foldl allBanks (by decide) s sorted ⟨0, 0, 0, 0⟩
    have done : clearAll () s = .done (allBanks.foldl clearAllVisit (s, ⟨0, 0, 0, 0⟩)).1
        (.allCleared (allBanks.foldl clearAllVisit (s, ⟨0, 0, 0, 0⟩)).2.removed
          (allBanks.foldl clearAllVisit (s, ⟨0, 0, 0, 0⟩)).2.kept
          (allBanks.foldl clearAllVisit (s, ⟨0, 0, 0, 0⟩)).2.passedOver
          (allBanks.foldl clearAllVisit (s, ⟨0, 0, 0, 0⟩)).2.entries) := rfl
    rw [banks_countP law, Nat.zero_add] at removed kept
    rw [banks_guarded, Nat.zero_add] at passed
    rw [Nat.zero_add] at entries
    have parts : (allBanks.flatMap fun b => s.bankNotes b.val fun d => !s.spares d) =
        (List.range 16).flatMap fun m => s.bankNotes m fun d => !s.spares d := by
      rw [← allBanks_eq, List.flatMap_map]
    have bySorted : s.clips.Pairwise fun a b => a.id / 64 ≤ b.id / 64 :=
      sorted.imp fun lt => Nat.div_le_div_right lt.le
    have logs : ∀ n, entriesOf ((List.range n).flatMap fun m => s.bankNotes m fun d => !s.spares d) =
        s.goneLog fun d => decide (d.id / 64 < n) && !s.spares d := by
      intro n
      rw [entriesOf_flatMap, State.goneLog, filter_eq_flatMap (f := fun d : Clip => d.id / 64) bySorted,
        List.flatMap_assoc]
      exact List.flatMap_congr fun m _ => bankNotes_entries m _
    have below : ∀ d ∈ s.clips, d.id / 64 < 16 := fun d hd => by
      have := law.2.2.1 d hd
      omega
    have dead : ∀ id, (allBanks.any fun b => s.clips.any fun d => d.id == id && (d.id / 64 == b.val && !s.spares d)) =
        s.clips.any fun d => d.id == id && !s.spares d := by
      intro id
      rw [Bool.eq_iff_iff, List.any_eq_true, List.any_eq_true]
      constructor
      · rintro ⟨b, -, h⟩
        obtain ⟨d, hd, h⟩ := List.any_eq_true.mp h
        simp only [Bool.and_eq_true] at h
        exact ⟨d, hd, by simp [h.1, h.2.2]⟩
      · rintro ⟨d, hd, h⟩
        simp only [Bool.and_eq_true] at h
        refine ⟨⟨d.id / 64, below d hd⟩, ?_, List.any_eq_true.mpr ⟨d, hd, by simp [h.1, h.2]⟩⟩
        have all : ∀ b : Fin 16, b ∈ allBanks := by decide
        exact all _
    have whole : s.goneLog (fun d => decide (d.id / 64 < 16) && !s.spares d) = s.goneLog fun d => !s.spares d := by
      unfold State.goneLog
      rw [List.filter_congr fun d hd => by rw [decide_eq_true (below d hd), Bool.true_and]]
    rw [removed, kept, passed] at done
    rw [without_congr dead, parts] at state
    rw [state] at done entries
    refine ⟨_, _, accepted_of_done (f := clearAll) rfl ht done, without_left law (fun _ => rfl)
      ((logs 16).trans whole) entries, fun size => ?_⟩
    have raised := without_raised (s := s) (dead := fun id => s.clips.any fun d => d.id == id && !s.spares d)
      (notes := (List.range 16).flatMap fun m => s.bankNotes m fun d => !s.spares d) size
    rw [bodiesOf_flatMap size] at raised
    simp only [logs] at raised
    simp only [State.bankNotes, bodiesOf_entries_reports] at raised
    exact raised

end Sys2Proof.Machine
end

section
/-! SET_REPORTS, QUERY_STATUS, the fault record and the alarm line (R182 to R188). -/

namespace Sys2Proof.Machine

/-! ## The settings of the report classes -/

theorem classIndex_injective : Function.Injective classIndex := by
  intro a b same
  revert same
  cases a <;> cases b <;> decide

theorem setClass_same (v : Vector ClassSetting 6) (r : ReportSettingField) :
    (setClass v r)[(classIndex r.cls).val] = ⟨r.enabled, r.priority.toNat⟩ := by
  simp [setClass]

theorem setClass_other (v : Vector ClassSetting 6) (r : ReportSettingField) {k : ReportClass} (other : r.cls ≠ k) :
    (setClass v r)[(classIndex k).val] = v[(classIndex k).val] := by
  have apart : (classIndex r.cls).val ≠ (classIndex k).val := fun same =>
    other (classIndex_injective (Fin.ext same))
  simp [setClass, apart]

/-- A class no entry of a list names keeps its setting. -/
theorem setClasses_other {l : List ReportSettingField} {k : ReportClass} (v : Vector ClassSetting 6)
    (others : ∀ r ∈ l, r.cls ≠ k) : (l.foldl setClass v)[(classIndex k).val] = v[(classIndex k).val] := by
  induction l generalizing v with
  | nil => rfl
  | cons r rest ih =>
    rw [List.foldl_cons, ih _ fun q hq => others q (List.mem_cons_of_mem _ hq),
      setClass_other v r (others r List.mem_cons_self)]

/-- Each entry of a list that names no class twice is the setting of its class in the end. -/
theorem setClasses_named {l : List ReportSettingField} (v : Vector ClassSetting 6) (nodup : (l.map (·.cls)).Nodup) :
    ∀ r ∈ l, (l.foldl setClass v)[(classIndex r.cls).val] = ⟨r.enabled, r.priority.toNat⟩ := by
  induction l generalizing v with
  | nil => exact fun r hr => absurd hr List.not_mem_nil
  | cons r rest ih =>
    rw [List.map_cons, List.nodup_cons] at nodup
    intro q hq
    rw [List.foldl_cons]
    rcases List.mem_cons.mp hq with rfl | later
    · rw [setClasses_other _ fun p hp same => nodup.1 (List.mem_map.mpr ⟨p, hp, same⟩), setClass_same]
    · exact ih _ nodup.2 q later

/-! ## The records of the device as lists -/

theorem allTrains_map {s : State} {β : Type} (f : Train → β) :
    (allTrains.map fun x => f (s.train x)) = s.trains.toList.map f := by
  refine List.ext_getElem (by simp [allTrains]) fun i h _ => ?_
  have trains : allTrains = List.finRange 16 := rfl
  simp [trains, State.train]

theorem allChannels_map {s : State} {β : Type} (f : Channel → β) :
    (allChannels.map fun c => f (s.channel c)) = s.channels.toList.map f := by
  refine List.ext_getElem (by simp [allChannels]) fun i h _ => ?_
  have channels : allChannels = List.finRange 6 := rfl
  simp [channels, State.channel]

theorem allPanels_map {s : State} {β : Type} (f : Panel → β) :
    (allPanels.map fun p => f (s.panel p)) = s.panels.toList.map f := by
  refine List.ext_getElem (by simp [allPanels]) fun i h _ => ?_
  have panels : allPanels = List.finRange 4 := rfl
  simp [panels, State.panel]

/-- The summary of a channel's record (R68), with the train of its source. -/
def Channel.summary (ch : Channel) (train : Option TrainId) : ChannelSummary :=
  { state := ch.state, source := ⟨ch.source, train⟩
    head := if ch.state = .idle then none else some (ch.head / 1200, ch.head % 1200)
    speed := ch.speed, target := ch.target, accel := ch.accel, blend := ch.blend, endAction := ch.endAction
    liveDelay := ch.liveDelay, role := ch.role, markIn := ch.markIn.isSome, markOut := ch.markOut.isSome
    lastServed := ch.lastServed, lastPresent := ch.lastPresent.map (·.brief) }

theorem trainPart_eq {s : State} (start : Nat) :
    ((allTrains.drop start).take 4).map (fun x => (s.train x).summary) =
      ((s.trains.toList.drop start).take 4).map (·.summary) := by
  rw [List.map_take, List.map_drop, allTrains_map (·.summary), List.map_take, List.map_drop]

theorem channelPart_eq {s : State} (start : Nat) :
    ((allChannels.drop start).take 3).map s.channelSummary =
      ((s.channels.toList.drop start).take 3).map fun ch => ch.summary (s.sourceTrain ch.source) := by
  have all := allChannels_map (s := s) fun ch => ch.summary (s.sourceTrain ch.source)
  rw [List.map_take, List.map_drop, List.map_take, List.map_drop]
  exact congrArg (fun l => (l.drop start).take 3) all

/-- Settles O44. -/
theorem reportSettingsAndStatus : Obligations.ReportSettingsAndStatus := by
  intro tag u s
  refine ⟨fun l ht => ?_, fun ht => ?_, fun b ht => ⟨fun out => ?_, fun lt => ?_⟩,
    fun b ht => ⟨fun out => ?_, fun lt => ?_⟩, fun ht => ?_⟩
  · -- the list is good exactly when the block accepts it
    have good : (1 ≤ l.length ∧ l.length ≤ 6 ∧ (l.map (·.cls)).Nodup ∧
        (l.all fun r => decide (r.priority.toNat ≤ 3)) = true) ↔
        (1 ≤ l.length ∧ l.length ≤ 6 ∧ (l.map (·.cls)).Nodup ∧ ∀ r ∈ l, r.priority.toNat ≤ 3) := by
      simp [List.all_eq_true]
    refine ⟨fun bad => turnedAway_of_refuse (f := setReports) rfl ht (if_neg (mt good.mp bad)), fun ok =>
      ⟨_, accepted_of_done (f := setReports) rfl ht (if_pos (good.mpr ok)), setClasses_named _ ok.2.2.1, fun k =>
        setClasses_other _⟩⟩
  · refine accepted_of_done (f := querySummary) rfl ht ?_
    unfold querySummary
    rw [allTrains_map (·.state), allChannels_map fun ch => (ch.state, ch.role),
      allPanels_map fun p => (p.binding, p.arm)]
    rfl
  · refine turnedAway_of_refuse (f := queryTrains) rfl ht ?_
    unfold queryTrains
    rw [show trainOf b = none from dif_neg (by omega)]
  · refine accepted_of_done (f := queryTrains) rfl ht ?_
    unfold queryTrains
    rw [show trainOf b = some ⟨b.toNat, lt⟩ from dif_pos lt]
    exact congrArg (fun l => Verdict.done s (.trains l)) (trainPart_eq b.toNat)
  · refine turnedAway_of_refuse (f := queryChannels) rfl ht ?_
    unfold queryChannels
    rw [show channelOf b = none from dif_neg (by omega)]
  · refine accepted_of_done (f := queryChannels) rfl ht ?_
    unfold queryChannels
    rw [show channelOf b = some ⟨b.toNat, lt⟩ from dif_pos lt]
    exact congrArg (fun l => Verdict.done s (.channels l)) (channelPart_eq b.toNat)
  · refine accepted_of_done (f := queryPanels) rfl ht ?_
    unfold queryPanels
    rw [allPanels_map fun p => p.summary s.time]
    rfl

/-! ## The hold of the alarm line -/

section alarm
variable {a : Alarm} {now : Nat}

/-- The hold runs exactly when one is held whose end is later than the clock. -/
theorem running_iff : a.running now = true ↔ ∃ h, a.hold = some h ∧ laterTime h.finish now = true := by
  unfold Alarm.running
  cases a.hold with
  | none => simp
  | some h => simp

theorem not_running_iff : a.running now = false ↔ ∀ h, a.hold = some h → ¬laterTime h.finish now = true := by
  rw [← Bool.not_eq_true, running_iff]
  simp

theorem remaining_running {h : Hold} (held : a.hold = some h) (runs : laterTime h.finish now = true) :
    a.remaining now = some (elapsed h.finish now) := by
  simp only [Alarm.remaining, held, runs, if_true]

theorem remaining_stopped (stopped : a.running now = false) : a.remaining now = none := by
  unfold Alarm.remaining
  cases held : a.hold with
  | none => rfl
  | some h => exact if_neg (not_running_iff.mp stopped h held)

theorem clear_released (line : a.line ≠ .asserted) : a.clear now = a := by
  unfold Alarm.clear
  cases state : a.line with
  | deasserted => rfl
  | clearing => rfl
  | asserted => exact absurd state line

theorem clear_running (line : a.line = .asserted) (runs : a.running now = true) :
    a.clear now = { a with line := .clearing } := by
  simp only [Alarm.clear, line, runs, if_true]

theorem clear_stopped (line : a.line = .asserted) (stopped : a.running now = false) :
    a.clear now = { a with line := .deasserted, hold := none } := by
  simp [Alarm.clear, line, stopped]

theorem lengthened_stopped {w : Nat} (stopped : a.running now = false) : a.lengthened now w = a.hold := by
  simp [Alarm.lengthened, stopped]

theorem lengthened_running {w : Nat} {h : Hold} (held : a.hold = some h) (runs : laterTime h.finish now = true) :
    a.lengthened now w = some ⟨h.start, if laterTime (timePlus h.start w) h.finish = true then
      timePlus h.start w else h.finish⟩ := by
  have running : a.running now = true := running_iff.mpr ⟨h, held, runs⟩
  simp only [Alarm.lengthened, running, if_true, held, Option.map_some, Hold.lengthen]
  split <;> rfl

/-- A hold end is due exactly when a hold is held that runs no longer. -/
theorem holdDue_iff : a.holdDue now = true ↔ ∃ h, a.hold = some h ∧ ¬laterTime h.finish now = true := by
  unfold Alarm.holdDue
  cases a.hold with
  | none => simp
  | some h => simp

end alarm

/-- Settles O45. -/
theorem faultsAndAlarm : Obligations.FaultsAndAlarm := by
  intro tag s
  refine ⟨fun u ht => ⟨_, accepted_of_done (f := readFaults) rfl ht rfl, fun h => remaining_running, fun stopped =>
      remaining_stopped (not_running_iff.mpr stopped)⟩,
    fun u ht => ⟨_, accepted_of_done (f := clearFaults) rfl ht rfl, rfl, clear_released, fun h line held runs =>
      clear_running line (running_iff.mpr ⟨h, held, runs⟩), fun line stopped =>
      clear_stopped line (not_running_iff.mpr stopped), rfl⟩,
    fun u mask w ht => ⟨fun bad => ?_, fun low from100 to5000 => ?_⟩,
    fun on => ⟨fun h held stopped => ?_, fun runs => ?_⟩⟩
  · refine turnedAway_of_refuse (f := setAlarm) rfl ht (if_neg fun ⟨valid, least, most⟩ => ?_)
    have low : mask.toNat < 64 := by simpa [maskValid] using valid
    change 100 ≤ w.toNat at least
    change w.toNat ≤ 5000 at most
    omega
  · have valid : maskValid mask = true := decide_eq_true low
    exact ⟨_, accepted_of_done (f := setAlarm) rfl ht (if_pos ⟨valid, from100, to5000⟩),
      fun stopped => lengthened_stopped (not_running_iff.mpr stopped), fun h => lengthened_running⟩
  · exact leaves_powered rfl on (if_pos (holdDue_iff.mpr ⟨h, held, stopped⟩))
  · refine leaves_powered rfl on (if_neg fun due => ?_)
    obtain ⟨h, held, stopped⟩ := holdDue_iff.mp due
    exact stopped (runs h held)

end Sys2Proof.Machine
end

section
/-! What a reclaim and a discard share (R6, R22, R23, R91, R135): the clips reached, each changed and reported in id
order, and the channels whose programme is aborted one after the other. -/

namespace Sys2Proof.Machine

/-- What holds of the elements visited and the state they have left, kept by every visit, holds at the end of a fold
over a list without repetitions. -/
theorem foldl_visits {α β : Type} {P : List α → β → Prop} {op : β → α → β}
    (step : ∀ done a b, a ∉ done → P done b → P (done ++ [a]) (op b a)) {l : List α} (nodup : l.Nodup) {b : β}
    (start : P [] b) : P l (l.foldl op b) := by
  have from' : ∀ (l done : List α) (b : β), (done ++ l).Nodup → P done b → P (done ++ l) (l.foldl op b) := by
    intro l
    induction l with
    | nil => exact fun done b _ h => (List.append_nil done).symm ▸ h
    | cons a rest ih =>
      intro done b distinct h
      have split : done ++ a :: rest = (done ++ [a]) ++ rest := by simp
      have fresh : a ∉ done := fun seen =>
        (List.nodup_append.mp distinct).2.2 a seen a List.mem_cons_self rfl
      rw [split]
      exact ih _ _ (split ▸ distinct) (step done a b fresh h)
  exact from' l [] b nodup start

theorem allChannels_distinct : allChannels.Nodup := by decide

/-! ## Clips reached -/

section reached

variable (f : Clip → Angle → Option (Angle × TrimCase))

/-- A clip after a change of the angles that f reaches: its state derived again where any is reached (R135). -/
def Clip.reachedBy (k : Clip) : Clip :=
  if (angleChanges (f k) k.angles).isEmpty then k
  else Clip.derive { k with angles := changedAngles (f k) k.angles }

/-- The report of a clip reached (R135). -/
def Clip.reachReport (x : TrainId) (range : TrimRange) (k : Clip) : ReportBody :=
  if (k.reachedBy f).state = .lost then .lost k.id x range (k.reachedBy f).state
  else .trimmed k.id x range (k.reachedBy f).state (angleChanges (f k) k.angles)

/-- The angles of a clip that are no longer present, as (clip id, angle index) pairs. -/
def Clip.anglesLost (k : Clip) : List (Nat × Nat) :=
  (angleChanges (f k) k.angles).filterMap fun ic => if ic.2 = .case1 then some (k.id, ic.1) else none

/-- Any angle of the clip is reached. -/
def Clip.isReached (k : Clip) : Bool := !(angleChanges (f k) k.angles).isEmpty

theorem reachedBy_id (k : Clip) : (k.reachedBy f).id = k.id := by
  unfold Clip.reachedBy
  split <;> rfl

/-- A clip not reached stays. -/
theorem reachedBy_of_not_reached {k : Clip} (h : k.isReached f = false) : k.reachedBy f = k := by
  have none : (angleChanges (f k) k.angles).isEmpty = true := by simpa [Clip.isReached] using h
  exact if_pos none

theorem reachedBy_of_reached {k : Clip} (h : k.isReached f = true) :
    k.reachedBy f = Clip.derive { k with angles := changedAngles (f k) k.angles } := by
  have some : ¬(angleChanges (f k) k.angles).isEmpty = true := by simpa [Clip.isReached] using h
  exact if_neg some

/-- One clip reached: its record replaced, its report raised. -/
theorem reachClip_eq (x : TrainId) (range : TrimRange) (acc : State × List (Nat × Nat)) (k : Clip) :
    reachClip x range f acc k =
      if k.isReached f then ((acc.1.setClip (k.reachedBy f)).raise (k.reachReport f x range), acc.2 ++ k.anglesLost f)
      else acc := by
  unfold reachClip
  cases reached : k.isReached f with
  | false => exact if_pos (by simpa [Clip.isReached] using reached)
  | true =>
    have some : ¬(angleChanges (f k) k.angles).isEmpty = true := by simpa [Clip.isReached] using reached
    refine (if_neg some).trans ?_
    rw [Clip.reachReport, reachedBy_of_reached f reached]
    rfl

/-- The clip table with one clip's record replaced where it is reached. -/
def reachTable (cs : List Clip) (k : Clip) : List Clip :=
  if k.isReached f then cs.map fun d => if d.id = (k.reachedBy f).id then k.reachedBy f else d else cs

/-- Clips reached one after the other: their records replaced, a report raised for each, the angles lost kept in
order. -/
theorem reachClips_eq (x : TrainId) (range : TrimRange) (ks : List Clip) (s : State) (lost : List (Nat × Nat)) :
    ks.foldl (reachClip x range f) (s, lost) = ({ s with
      clips := ks.foldl (reachTable f) s.clips
      reports := (((ks.filter (Clip.isReached f)).map (Clip.reachReport f x range)).foldl State.raise s).reports },
      lost ++ ks.flatMap (Clip.anglesLost f)) := by
  induction ks generalizing s lost with
  | nil => simp
  | cons k rest ih =>
    rw [List.foldl_cons, reachClip_eq]
    cases reached : k.isReached f with
    | false =>
      have none : k.anglesLost f = [] := by
        have empty : angleChanges (f k) k.angles = [] := by simpa [Clip.isReached] using reached
        rw [Clip.anglesLost, empty]
        rfl
      rw [if_neg (by simp), ih]
      simp [reached, reachTable, none]
    | true =>
      rw [if_pos rfl, ih]
      obtain ⟨r, raised⟩ := raise_eq (s.setClip (k.reachedBy f)) (k.reachReport f x range)
      have reports : ∀ bs : List ReportBody,
          (bs.foldl State.raise ((s.setClip (k.reachedBy f)).raise (k.reachReport f x range))).reports =
            (bs.foldl State.raise (s.raise (k.reachReport f x range))).reports := fun bs =>
        raises_reports_congr bs (raise_reports_congr _ rfl rfl) (by rw [raise_time, raise_time]; rfl)
      rw [reports, raised]
      simp [reached, reachTable, State.setClip]

/-- Replacing several records is replacing them in each place. -/
theorem reachTable_foldl (ks cs : List Clip) : ks.foldl (reachTable f) cs =
    cs.map fun d => ks.foldl (fun d k => if k.isReached f = true ∧ d.id = k.id then k.reachedBy f else d) d := by
  induction ks generalizing cs with
  | nil => simp
  | cons k rest ih =>
    rw [List.foldl_cons, ih, reachTable]
    cases reached : k.isReached f with
    | false => simp [reached]
    | true => simp [reached, reachedBy_id, Function.comp_def]

/-- In a table with distinct ids each clip is replaced by what it becomes. -/
theorem reachTable_distinct {cs : List Clip} (distinct : cs.Pairwise fun a b => a.id < b.id) :
    cs.foldl (reachTable f) cs = cs.map (Clip.reachedBy f) := by
  rw [reachTable_foldl]
  refine List.map_congr_left fun d hd => ?_
  have apart : (cs.map (·.id)).Nodup := List.pairwise_map.mpr (distinct.imp Nat.ne_of_lt)
  have nodup : cs.Nodup := .of_map _ apart
  -- after some of the clips, d is what it becomes exactly when it is one of them
  have visits := foldl_visits (P := fun done e => (∀ k ∈ done, k ∈ cs) → e = if d ∈ done then d.reachedBy f else d)
    (op := fun d k => if k.isReached f = true ∧ d.id = k.id then k.reachedBy f else d)
    (fun done k e fresh before sub => by
      have e_eq := before fun j hj => sub j (List.mem_append_left _ hj)
      have hk : k ∈ cs := sub k (by simp)
      have id_eq : e.id = d.id := by
        rw [e_eq]
        split
        · exact reachedBy_id f d
        · rfl
      rw [id_eq]
      by_cases same : d = k
      · subst same
        rw [if_neg fresh] at e_eq
        cases reached : d.isReached f with
        | false => simp [e_eq, reachedBy_of_not_reached f reached]
        | true => simp
      · have ids : d.id ≠ k.id := fun h => same (List.inj_on_of_nodup_map apart hd hk h)
        simp [ids, e_eq, same])
    nodup (b := d) (fun _ => (if_neg List.not_mem_nil).symm)
  rw [visits fun k hk => hk, if_pos hd]

/-- An angle list's changes are none exactly when no angle is reached. -/
theorem isReached_iff (k : Clip) : k.isReached f = k.angles.any fun g => (f k g).isSome := by
  have changes : angleChanges (f k) k.angles = [] ↔ ∀ g ∈ k.angles, f k g = none := by
    have mem : (∀ (g : Angle) (i : Nat), (g, i) ∈ k.angles.zipIdx → f k g = none) ↔ ∀ g ∈ k.angles, f k g = none := by
      simp only [List.mem_zipIdx_iff_getElem?]
      simp only [List.mem_iff_getElem?]
      exact ⟨fun h g ⟨i, hi⟩ => h g i hi, fun h g i hi => h g ⟨i, hi⟩⟩
    simpa [angleChanges, List.filterMap_eq_nil_iff] using mem
  rw [Bool.eq_iff_iff, Clip.isReached, Bool.not_eq_true', ← Bool.not_eq_true, List.isEmpty_iff, changes,
    List.any_eq_true]
  simp [Option.isSome_iff_ne_none]

end reached

/-! ## Programmes aborted one after the other -/

/-- The notes of programmes aborted in order: the entry of the session ended, where there was one, and the channel's
own report (R70, R175). -/
def State.abortNotes (s : State) (changed : ChannelId → ReportBody) (cs : List ChannelId) : List Note :=
  cs.flatMap fun c => (s.endedOn .aborted [c]).map .entry ++ [.report (changed c)]

theorem entriesOf_abortNotes (s : State) (changed : ChannelId → ReportBody) (cs : List ChannelId) :
    entriesOf (s.abortNotes changed cs) = s.endedOn .aborted cs := by
  rw [State.abortNotes, entriesOf_flatMap]
  refine List.flatMap_congr fun c _ => ?_
  rw [entriesOf_append, entriesOf_entries]
  simp [entriesOf, State.endedOn]

theorem bodiesOf_abortNotes (s : State) (changed : ChannelId → ReportBody) (cs : List ChannelId) {size : Nat}
    (bound : size ≤ 256) : bodiesOf size (s.abortNotes changed cs) = s.abortReports changed size cs := by
  induction cs generalizing size with
  | nil => rfl
  | cons c rest ih =>
    have entries : entriesOf ((s.endedOn .aborted [c]).map .entry ++ [.report (changed c)]) = s.endedOn .aborted [c] := by
      rw [entriesOf_append, entriesOf_entries]
      simp [entriesOf]
    have own := bodiesOf_entries_reports size (s.endedOn .aborted [c]) [changed c]
    rw [List.map_singleton] at own
    rw [State.abortNotes, List.flatMap_cons, bodiesOf_append bound, entries, own]
    refine (congrArg (_ ++ ·) (ih (Nat.min_le_left ..))).trans ?_
    simp [State.abortReports]

/-- From s to t the programmes of these channels have been aborted in order: their sessions have ended and are logged,
queue play has ended, each change has been reported, and a LOST panel of a channel that was in SHUTTLE is disarmed. The
channels' own records are said apart. -/
structure State.Aborts (s t : State) (changed : ChannelId → ReportBody) (cs : List ChannelId) : Prop where
  rest : t = { s with
    channels := t.channels, queues := t.queues, panels := t.panels
    runLog := (s.noted (s.abortNotes changed cs)).runLog, reports := (s.noted (s.abortNotes changed cs)).reports }
  queue : ∀ c, t.queue c = if c ∈ cs then { s.queue c with playing := false, session := none } else s.queue c
  binding : ∀ p, (t.panel p).binding = (s.panel p).binding
  panel : (∀ p q c, (s.panel p).binding = some c → (s.panel q).binding = some c → p = q) → ∀ p, t.panel p =
    if (s.panel p).arm = .lost ∧ (s.panel p).binding.any (fun c => decide (c ∈ cs ∧ (s.channel c).state = .shuttle)) then
      { s.panel p with arm := .disarmed }
    else s.panel p

theorem aborts_nil {s : State} (changed : ChannelId → ReportBody) : s.Aborts s changed [] where
  rest := rfl
  queue c := by simp
  binding _ := rfl
  panel _ p := by simp

/-- The state is s up to the channels', queues' and panels' records, the run log and the report unit. -/
theorem State.Aborts.same {s t : State} {changed : ChannelId → ReportBody} {cs : List ChannelId}
    (h : s.Aborts t changed cs) :
    s.keepsStore t ∧ s.keepsClips t ∧ s.keepsFaults t ∧ s.keepsLinks t ∧ t.freeReads = s.freeReads := by
  rw [h.rest]
  exact ⟨⟨rfl, rfl, rfl, rfl⟩, ⟨rfl, rfl⟩, ⟨rfl, rfl⟩, ⟨rfl, rfl, rfl, rfl, rfl, rfl, rfl⟩, rfl⟩

theorem State.Aborts.sourceTrain {s t : State} {changed : ChannelId → ReportBody} {cs : List ChannelId}
    (h : s.Aborts t changed cs) (src : Source) : t.sourceTrain src = s.sourceTrain src := by
  rw [h.rest]
  rfl

/-- One more programme aborted, on a channel not yet visited and whatever has become of the channels' records. -/
theorem State.Aborts.step {s t u : State} {changed : ChannelId → ReportBody} {cs : List ChannelId}
    (h : s.Aborts t changed cs) (hu : u = { t with channels := u.channels }) {c : ChannelId} (fresh : c ∉ cs)
    {new : Channel} {cause : Cause} (before : (u.channel c).state = (s.channel c).state) (after : new.state ≠ .shuttle)
    (report : u.changeReport c new cause = [changed c]) :
    s.Aborts ((u.cutProgramme c .aborted).commit c cause new) changed (cs ++ [c]) := by
  have queues : ∀ d, u.queue d = t.queue d := fun d => by rw [hu]; rfl
  have panels : ∀ p, u.panel p = t.panel p := fun p => by rw [hu]; rfl
  have ended : u.endedOn .aborted [c] = s.endedOn .aborted [c] := by
    simp only [State.endedOn, List.flatMap_cons, List.flatMap_nil, queues, h.queue, if_neg fresh]
  have notes : s.abortNotes changed (cs ++ [c]) = s.abortNotes changed cs ++ u.cutNotes c .aborted new cause := by
    rw [State.cutNotes, report, ended]
    simp [State.abortNotes]
  have same : u = { s with
      channels := u.channels, queues := t.queues, panels := t.panels
      runLog := (s.noted (s.abortNotes changed cs)).runLog, reports := (s.noted (s.abortNotes changed cs)).reports } := by
    rw [hu, h.rest]
  rw [cutProgramme_commit]
  obtain ⟨log, reports⟩ : (u.noted (u.cutNotes c .aborted new cause)).runLog =
      (s.noted (s.abortNotes changed (cs ++ [c]))).runLog ∧
      (u.noted (u.cutNotes c .aborted new cause)).reports = (s.noted (s.abortNotes changed (cs ++ [c]))).reports := by
    rw [notes, noted_append]
    refine noted_congr _ (by rw [same]) (by rw [same]) ?_
    rw [noted_eq s, same]
  refine ⟨?_, fun d => ?_, fun p => ?_, fun single p => ?_⟩
  · unfold State.played
    rw [log, reports, same]
  · by_cases own : d = c
    · subst own
      rw [played_queue_self, queues, h.queue, if_neg fresh]
      simp
    · rw [played_queue_ne _ _ _ _ _ _ _ own, queues, h.queue]
      simp [own]
  · rw [played_panel, rearm_binding, panels, h.binding]
  · rw [played_panel]
    have kept := h.panel single p
    by_cases bound : (s.panel p).binding = some c
    · have uniqueU : ∀ p q d, (u.panel p).binding = some d → (u.panel q).binding = some d → p = q := by
        intro p q d hp hq
        rw [panels, h.binding] at hp hq
        exact single p q d hp hq
      have untouched : t.panel p = s.panel p := by
        rw [kept, if_neg]
        simp [bound, fresh]
      have boundPanel : u.boundPanel c = some p := by
        cases found : u.boundPanel c with
        | none => exact absurd (by rw [panels, h.binding]; exact bound) (boundPanel_none found p)
        | some q =>
          exact congrArg some (uniqueU q p c (boundPanel_binding found) (by rw [panels, h.binding]; exact bound))
      rw [State.rearm, boundPanel]
      simp only [State.setArm, setPanel_panel_self, panels, untouched, before]
      unfold leaveArm ArmState.unlost
      by_cases shuttle : (s.channel c).state = .shuttle
      · by_cases lost : (s.panel p).arm = .lost
        · simp [shuttle, after, lost, bound]
        · simp [shuttle, after, lost]
      · rw [if_neg fun left => shuttle left.1, if_neg (by simp [bound, shuttle])]
        rfl
    · rw [rearm_panel_unbound _ (by rw [panels, h.binding]; exact bound), panels, kept]
      have other : ∀ d, (s.panel p).binding = some d → (d ∈ cs ++ [c] ↔ d ∈ cs) := by
        intro d hd
        have : d ≠ c := fun e => bound (e ▸ hd)
        simp [this]
      cases hb : (s.panel p).binding with
      | none => rfl
      | some d => simp only [Option.any_some, other d hb]

end Sys2Proof.Machine
end

section
/-! Chains in order (R2 to R4): the retained serials, the edges, an entry taken out, the ranges of the anchors (R35). -/

namespace Sys2Proof.Machine

/-- Chain entries in the order of their serials, no extent twice (R2, R3). -/
abbrev ordered (chain : List ChainEntry) : Prop :=
  chain.Pairwise fun a b => a.first + a.fill ≤ b.first ∧ a.extent ≠ b.extent

section chain
variable {t : Train}

theorem retained_iff {q : Nat} : t.retained q = true ↔ ∃ e ∈ t.chain, e.first ≤ q ∧ q < e.first + e.fill := by
  simp [Train.retained, ChainEntry.holds]

theorem anyRetained_iff {a b : Nat} : t.anyRetained a b = true ↔ ∃ q, a ≤ q ∧ q ≤ b ∧ t.retained q = true := by
  simp only [Train.anyRetained, List.any_eq_true, ChainEntry.touches, decide_eq_true_eq, retained_iff]
  constructor
  · rintro ⟨e, he, some, low, high, le⟩
    exact ⟨max a e.first, by omega, by omega, e, he, by omega, by omega⟩
  · rintro ⟨q, low, high, e, he, first, last⟩
    exact ⟨e, he, by omega, by omega, by omega, by omega⟩

/-- No retained serial lies above the record edge. -/
theorem retained_le_recordEdge (order : ordered t.chain) {q : Nat} (kept : t.retained q = true) :
    ∃ edge, t.recordEdge = some edge ∧ q ≤ edge := by
  obtain ⟨e, he, first, last⟩ := retained_iff.mp kept
  unfold Train.recordEdge
  cases found : t.chain.reverse.find? (·.nonEmpty) with
  | none =>
    have := List.find?_eq_none.mp found e (List.mem_reverse.mpr he)
    exact absurd (decide_eq_true (show 0 < e.fill by omega)) this
  | some d =>
    refine ⟨d.last, rfl, ?_⟩
    obtain ⟨nonEmpty, pre, post, split, passed⟩ := List.find?_eq_some_iff_append.mp found
    have hd : 0 < d.fill := of_decide_eq_true nonEmpty
    have chain : t.chain = post.reverse ++ d :: pre.reverse := by
      rw [← List.reverse_reverse t.chain, split]
      simp
    rw [chain] at he order
    rcases List.mem_append.mp he with before | at'
    · have := (List.pairwise_append.mp order).2.2 e before d List.mem_cons_self
      unfold ChainEntry.last
      omega
    · rcases List.mem_cons.mp at' with rfl | after
      · unfold ChainEntry.last
        omega
      · have empty := passed e (List.mem_reverse.mp after)
        simp only [ChainEntry.nonEmpty, Bool.not_eq_true', decide_eq_false_iff_not] at empty
        omega

theorem reachesAbove_iff {e : ChainEntry} {b : Nat} :
    (e.nonEmpty && decide (b < e.last)) = true ↔ 0 < e.fill ∧ b + 1 < e.first + e.fill := by
  rw [Bool.and_eq_true, decide_eq_true_eq, ChainEntry.nonEmpty, decide_eq_true_eq, ChainEntry.last]
  omega

theorem beginsBelow_iff {e : ChainEntry} {a : Nat} :
    (e.nonEmpty && decide (e.first < a)) = true ↔ 0 < e.fill ∧ e.first < a := by
  rw [Bool.and_eq_true, decide_eq_true_eq, ChainEntry.nonEmpty, decide_eq_true_eq]

/-- The least retained serial above b, by the first entry that reaches above b (Table 7-2, case 2). -/
theorem leastAbove_eq (order : ordered t.chain) {b q : Nat} (above : b < q) (kept : t.retained q = true)
    (least : ∀ m, b < m → m < q → t.retained m = false) : t.leastAbove b = some q := by
  obtain ⟨e, he, first, last⟩ := retained_iff.mp kept
  unfold Train.leastAbove
  cases found : t.chain.find? (fun e => e.nonEmpty && decide (b < e.last)) with
  | none =>
    have := mt reachesAbove_iff.mpr (List.find?_eq_none.mp found e he)
    omega
  | some d =>
    obtain ⟨reaches, pre, post, chain, passed⟩ := List.find?_eq_some_iff_append.mp found
    rw [reachesAbove_iff] at reaches
    -- the serial d gives is retained and above b, so q does not lie above it
    have given : t.retained (max d.first (b + 1)) = true :=
      retained_iff.mpr ⟨d, by rw [chain]; simp, by omega, by omega⟩
    have notAbove : q ≤ max d.first (b + 1) := by
      by_contra later
      rw [least _ (by omega) (by omega)] at given
      cases given
    rw [chain] at he order
    have notBelow : max d.first (b + 1) ≤ q := by
      rcases List.mem_append.mp he with before | at'
      · have := passed e before
        rw [Bool.not_eq_true', ← Bool.not_eq_true, reachesAbove_iff] at this
        omega
      · rcases List.mem_cons.mp at' with rfl | after
        · omega
        · have := (List.pairwise_cons.mp (List.pairwise_append.mp order).2.1).1 e after
          omega
    exact congrArg some (Nat.le_antisymm notBelow notAbove)

/-- The greatest retained serial below a, by the last entry that begins below a (Table 7-2, case 3). -/
theorem greatestBelow_eq (order : ordered t.chain) {a q : Nat} (below : q < a) (kept : t.retained q = true)
    (greatest : ∀ m, q < m → m < a → t.retained m = false) : t.greatestBelow a = some q := by
  obtain ⟨e, he, first, last⟩ := retained_iff.mp kept
  unfold Train.greatestBelow
  cases found : t.chain.reverse.find? (fun e => e.nonEmpty && decide (e.first < a)) with
  | none =>
    have := mt beginsBelow_iff.mpr (List.find?_eq_none.mp found e (List.mem_reverse.mpr he))
    omega
  | some d =>
    obtain ⟨begins, pre, post, split, passed⟩ := List.find?_eq_some_iff_append.mp found
    rw [beginsBelow_iff] at begins
    have chain : t.chain = post.reverse ++ d :: pre.reverse := by
      rw [← List.reverse_reverse t.chain, split]
      simp
    have given : t.retained (min d.last (a - 1)) = true :=
      retained_iff.mpr ⟨d, by rw [chain]; simp, by unfold ChainEntry.last; omega, by unfold ChainEntry.last; omega⟩
    have notBelow : min d.last (a - 1) ≤ q := by
      by_contra later
      rw [greatest _ (by omega) (by omega)] at given
      cases given
    rw [chain] at he order
    have notAbove : q ≤ min d.last (a - 1) := by
      rcases List.mem_append.mp he with before | at'
      · have := (List.pairwise_append.mp order).2.2 e before d List.mem_cons_self
        unfold ChainEntry.last
        omega
      · rcases List.mem_cons.mp at' with rfl | after
        · unfold ChainEntry.last
          omega
        · have := passed e (List.mem_reverse.mp after)
          rw [Bool.not_eq_true', ← Bool.not_eq_true, beginsBelow_iff] at this
          omega
    exact congrArg some (Nat.le_antisymm notBelow notAbove)

end chain

/-! ## An entry taken out -/

section entry
variable {pre post : List ChainEntry} {e n : ChainEntry}

/-- Taking an extent out of an ordered chain takes out the one entry that has it. -/
theorem filter_extent (order : ordered (pre ++ e :: post)) :
    (pre ++ e :: post).filter (fun d => d.extent != e.extent) = pre ++ post := by
  obtain ⟨-, right, across⟩ := List.pairwise_append.mp order
  have before : pre.filter (fun d => d.extent != e.extent) = pre := List.filter_eq_self.mpr fun d hd => by
    simpa using (across d hd e List.mem_cons_self).2
  have after : post.filter (fun d => d.extent != e.extent) = post := List.filter_eq_self.mpr fun d hd => by
    simpa using ((List.pairwise_cons.mp right).1 d hd).2.symm
  simp [before, after]

theorem entryAfter_eq (order : ordered (pre ++ e :: n :: post)) :
    entryAfter e.extent (pre ++ e :: n :: post) = some n := by
  induction pre with
  | nil => simp [entryAfter]
  | cons a rest ih =>
    obtain ⟨later, tail⟩ := List.pairwise_cons.mp order
    have apart : a.extent ≠ e.extent := (later e (by simp)).2
    cases rest with
    | nil => simp [entryAfter, apart]
    | cons b more => simpa [entryAfter, apart] using ih tail

end entry

/-! ## The ranges of the anchors -/

/-- The end of the range of anchor i, exclusive: the next anchor's serial, and for the newest the end given (R35). -/
def limitOf (newest : Nat) (l : List Anchor) (i : Nat) : Nat := (l[i + 1]?.map (·.serial)).getD newest

theorem withLimits_eq (newest : Nat) (l : List Anchor) :
    withLimits newest l = l.zipIdx.map fun gi => (gi.1, limitOf newest l gi.2) := by
  induction l with
  | nil => rfl
  | cons a rest ih =>
    cases rest with
    | nil => rfl
    | cons b more =>
      rw [withLimits, ih, List.zipIdx_cons (a := a), List.map_cons, List.zipIdx_succ, List.map_map]
      rfl

/-- Anchor i of a list keeps its place when it holds a retained frame (R38). -/
def AnchorMap.holds (m : AnchorMap) (t : Train) (i : Nat) : Bool :=
  match m.anchors[i]? with
  | some g => decide (g.serial < limitOf t.newestLimit m.anchors i) &&
      t.anyRetained g.serial (limitOf t.newestLimit m.anchors i - 1)
  | none => false

theorem dropUnheld_anchors (m : AnchorMap) (t : Train) :
    (m.dropUnheld t).anchors = (m.anchors.zipIdx.filter fun gi => m.holds t gi.2).map (·.1) := by
  unfold AnchorMap.dropUnheld
  rw [withLimits_eq, List.filter_map, List.map_map]
  refine congrArg (List.map _) (List.filter_congr fun gi hgi => ?_)
  have place : m.anchors[gi.2]? = some gi.1 := List.mem_zipIdx_iff_getElem?.mp hgi
  simp [AnchorMap.holds, place]

/-- The range of an anchor holds a retained frame. -/
theorem holds_iff {m : AnchorMap} {t : Train} (order : ordered t.chain) {i : Nat} {g : Anchor}
    (place : m.anchors[i]? = some g) : m.holds t i = true ↔
      ∃ q, g.serial ≤ q ∧ (∀ next, m.anchors[i + 1]? = some next → q < next.serial) ∧ t.retained q = true := by
  have inRange : m.holds t i = true ↔
      ∃ q, g.serial ≤ q ∧ q < limitOf t.newestLimit m.anchors i ∧ t.retained q = true := by
    simp only [AnchorMap.holds, place, Bool.and_eq_true, decide_eq_true_eq, anyRetained_iff]
    constructor
    · rintro ⟨some, q, low, high, kept⟩
      exact ⟨q, low, by omega, kept⟩
    · rintro ⟨q, low, high, kept⟩
      exact ⟨by omega, q, low, by omega, kept⟩
  rw [inRange]
  refine exists_congr fun q => and_congr_right fun _ => and_congr_left fun kept => ?_
  unfold limitOf
  cases m.anchors[i + 1]? with
  | some next => simp
  | none =>
    obtain ⟨edge, isEdge, le⟩ := retained_le_recordEdge order kept
    simp [Train.newestLimit, isEdge]
    omega

end Sys2Proof.Machine
end

section
/-! Reclaim (R22, R23, R38, R91, R134, R135): its parts one after the other, and what they leave. -/

namespace Sys2Proof.Machine

/-! ## The parts of a reclaim -/

/-- Train x's record without the entry of e's extent. -/
def State.trainWithout (s : State) (x : TrainId) (e : ChainEntry) : Train :=
  { s.train x with chain := (s.train x).chain.filter fun d => d.extent != e.extent }

/-- The first part: the entry leaves the chain, and the anchors that hold no retained frame leave the list (R22,
R38). -/
def State.unlinked (s : State) (x : TrainId) (e : ChainEntry) : State :=
  (s.setTrain x (s.trainWithout x e)).setMap x ((s.map x).dropUnheld (s.trainWithout x e))

/-- Where the heads on a reclaimed entry go: the first serial of the entry that follows (R23). -/
def State.serialAfter (s : State) (x : TrainId) (e : ChainEntry) : Nat :=
  ((entryAfter e.extent (s.train x).chain).map (·.first)).getD (s.train x).serialCounter

/-- The angles a reclaim of serials a to b changes, and how (Table 7-2). -/
def reclaims (t : Train) (x : TrainId) (a b : Nat) (k : Clip) (g : Angle) : Option (Angle × TrimCase) :=
  if k.lock = .unlocked ∧ g.reached x a b then some (g.reclaim t a b) else none

/-- Channel c's TRAIN-source head lies on serials a to b of train x. -/
def State.headOn (s : State) (x : TrainId) (a b : Nat) (c : ChannelId) : Bool :=
  decide ((s.channel c).source = .train x ∧ a ≤ (s.channel c).head / 1200 ∧ (s.channel c).head / 1200 ≤ b)

/-- The report of a head pushed (R23). -/
def State.pushReport (s : State) (x : TrainId) (next : Nat) (c : ChannelId) : ReportBody :=
  .pushed c x ((s.channel c).head / 1200) next

theorem raises_eq (s : State) (bs : List ReportBody) :
    bs.foldl State.raise s = { s with reports := (bs.foldl State.raise s).reports } := by
  have runLog := noted_runLog_of_reports (s := s) (entriesOf_reports bs)
  have noted := noted_eq s (bs.map .report)
  rw [runLog, noted_reports] at noted
  exact noted

theorem raises_time (s : State) (bs : List ReportBody) : (bs.foldl State.raise s).time = s.time := by
  rw [raises_eq]

/-- The heads pushed one after the other: their channels' heads, and a report for each. -/
theorem pushHeads_eq (s : State) (x : TrainId) (a b next : Nat) :
    let r := allChannels.foldl (State.pushHead x a b next) s
    r = { s with
      channels := r.channels
      reports := (((allChannels.filter (s.headOn x a b)).map (s.pushReport x next)).foldl State.raise s).reports } ∧
    ∀ c, r.channel c = if s.headOn x a b c then { s.channel c with head := next * 1200 } else s.channel c := by
  intro r
  have visits := foldl_visits (op := State.pushHead x a b next) (P := fun done t =>
      t = { s with
        channels := t.channels
        reports := (((done.filter (s.headOn x a b)).map (s.pushReport x next)).foldl State.raise s).reports } ∧
      ∀ c, t.channel c =
        if c ∈ done ∧ s.headOn x a b c = true then { s.channel c with head := next * 1200 } else s.channel c)
    (fun done c t fresh ⟨same, channels⟩ => by
      have own : t.channel c = s.channel c := (channels c).trans (if_neg fun h => fresh h.1)
      have here : (t.channel c).source = .train x ∧ a ≤ (t.channel c).head / Config.sfu ∧
          (t.channel c).head / Config.sfu ≤ b ↔ s.headOn x a b c = true := by
        rw [own, State.headOn, decide_eq_true_eq]
        rfl
      unfold State.pushHead
      dsimp only
      by_cases on : s.headOn x a b c = true
      · rw [if_pos (here.mpr on), own]
        have body : ReportBody.pushed c x ((s.channel c).head / Config.sfu) next = s.pushReport x next c := rfl
        rw [body]
        obtain ⟨r, raised⟩ := raise_eq
          (t.setChannel c { s.channel c with head := next * Config.sfu }) (s.pushReport x next c)
        have reports : r = ((((done ++ [c]).filter (s.headOn x a b)).map (s.pushReport x next)).foldl State.raise
            s).reports := by
          have : r = (State.raise (t.setChannel c { s.channel c with head := next * Config.sfu })
              (s.pushReport x next c)).reports := by rw [raised]
          rw [this, List.filter_append, List.map_append, List.foldl_append]
          simp only [on, List.filter_cons_of_pos, List.filter_nil, List.map_cons, List.map_nil, List.foldl_cons,
            List.foldl_nil]
          refine raise_reports_congr _ ?_ ?_
          · rw [setChannel_reports, same]
          · rw [setChannel_time, same, raises_time]
        rw [raised]
        refine ⟨?_, fun d => ?_⟩
        · rw [reports, same]
          rfl
        · by_cases other : d = c
          · subst other
            rw [if_pos ⟨by simp, on⟩]
            exact setChannel_channel_self ..
          · refine (setChannel_channel_ne t c _ other).trans ((channels d).trans (if_congr ?_ rfl rfl))
            simp [other]
      · rw [if_neg (mt here.mp on)]
        refine ⟨?_, fun d => (channels d).trans (if_congr ?_ rfl rfl)⟩
        · rw [List.filter_append, List.filter_cons_of_neg on, List.filter_nil, List.append_nil]
          exact same
        · by_cases other : d = c
          · subst other
            simp [on]
          · simp [other])
    allChannels_distinct (b := s) ⟨rfl, fun c => by simp⟩
  obtain ⟨same, channels⟩ := visits
  exact ⟨same, fun c => (channels c).trans (if_congr (and_iff_right (mem_allChannels c)) rfl rfl)⟩

/-! ## Channels that lose their angle -/

/-- A channel's record after the angle-loss handling (R91). -/
def Channel.onTrain (ch : Channel) (x : TrainId) (next : Nat) : Channel :=
  { ch with
    state := .cued, source := .train x, head := next * 1200, speed := 0, target := 0, bounce := none
    edgeHold := false, jogAcc := 0 }

/-- The report of the angle-loss handling (R91). -/
def State.lossReport (s : State) (x : TrainId) (next : Nat) (c : ChannelId) : ReportBody :=
  .stateChanged c (s.channel c).state .cued ⟨.train x, some x⟩ next .angleLoss

/-- The channels whose source is one of the angles lost, angle by angle. -/
def State.losing (s : State) (lost : List (Nat × Nat)) : List ChannelId :=
  lost.flatMap fun p => allChannels.filter fun c => decide ((s.channel c).source = .clip p.1 p.2)

/-- The angle-loss handling where the channel's source is the angle lost. -/
def State.loseOn (x : TrainId) (next : Nat) (s : State) (pc : (Nat × Nat) × ChannelId) : State :=
  if (s.channel pc.2).source = .clip pc.1.1 pc.1.2 then s.loseAngle x next pc.2 else s

theorem loseAngles_foldl (x : TrainId) (next : Nat) (lost : List (Nat × Nat)) (s : State) :
    lost.foldl (State.loseAngles x next) s =
      (lost.flatMap fun p => allChannels.map (Prod.mk p)).foldl (State.loseOn x next) s := by
  rw [List.foldl_flatMap]
  refine congrArg (fun f => lost.foldl f s) (funext fun t => funext fun p => ?_)
  rw [List.foldl_map]
  rfl

/-- The channels of a list of visits whose source is the angle lost. -/
def State.losingAmong (s : State) (visits : List ((Nat × Nat) × ChannelId)) : List ChannelId :=
  (visits.filter fun pc => decide ((s.channel pc.2).source = .clip pc.1.1 pc.1.2)).map (·.2)

theorem losingAmong_all (s : State) (lost : List (Nat × Nat)) :
    s.losingAmong (lost.flatMap fun p => allChannels.map (Prod.mk p)) = s.losing lost := by
  unfold State.losingAmong State.losing
  rw [List.filter_flatMap, List.map_flatMap]
  refine List.flatMap_congr fun p _ => ?_
  rw [List.filter_map, List.map_map]
  exact List.map_id _

/-- The angle-loss handling of one channel after another: each channel of the list has its programme aborted once. -/
theorem loseAngles_aborts (s : State) (x : TrainId) (next : Nat) (lost : List (Nat × Nat)) :
    let t := lost.foldl (State.loseAngles x next) s
    ∃ cs, s.Aborts t (s.lossReport x next) cs ∧
      (∀ c, t.channel c = if c ∈ cs then (s.channel c).onTrain x next else s.channel c) ∧
      (∀ c, c ∈ cs ↔ c ∈ s.losing lost) ∧ ((s.losing lost).Nodup → cs = s.losing lost) := by
  rw [loseAngles_foldl, ← losingAmong_all]
  generalize (lost.flatMap fun p => allChannels.map (Prod.mk p)) = visits
  induction visits using List.reverseRecOn with
  | nil => exact ⟨[], aborts_nil _, fun c => (if_neg List.not_mem_nil).symm, fun c => Iff.rfl, fun _ => rfl⟩
  | append_singleton done pc ih =>
    obtain ⟨cs, aborts, channels, mem, all⟩ := ih
    rw [List.foldl_append, List.foldl_cons, List.foldl_nil]
    generalize done.foldl (State.loseOn x next) s = t at aborts channels
    have more : s.losingAmong (done ++ [pc]) = s.losingAmong done ++
        if (s.channel pc.2).source = .clip pc.1.1 pc.1.2 then [pc.2] else [] := by
      unfold State.losingAmong
      rw [List.filter_append, List.map_append]
      by_cases here : (s.channel pc.2).source = .clip pc.1.1 pc.1.2 <;> simp [here]
    rw [more]
    by_cases seen : pc.2 ∈ cs
    · -- a channel already visited is on the train now
      have moved : ¬(t.channel pc.2).source = .clip pc.1.1 pc.1.2 := by
        rw [channels, if_pos seen]
        exact Source.noConfusion
      refine ⟨cs, ?_, ?_, fun c => ?_, fun nodup => ?_⟩
      · rw [State.loseOn, if_neg moved]
        exact aborts
      · rw [State.loseOn, if_neg moved]
        exact channels
      · rw [mem c]
        by_cases here : (s.channel pc.2).source = .clip pc.1.1 pc.1.2
        · rw [if_pos here, List.mem_append, List.mem_singleton]
          exact ⟨.inl, fun h => h.elim id fun e => e ▸ (mem _).mp seen⟩
        · simp [here]
      · by_cases here : (s.channel pc.2).source = .clip pc.1.1 pc.1.2
        · rw [if_pos here] at nodup
          exact absurd rfl ((List.nodup_append.mp nodup).2.2 _ ((mem _).mp seen) _ (List.mem_singleton_self _))
        · rw [if_neg here, List.append_nil] at nodup ⊢
          exact all nodup
    · have own : t.channel pc.2 = s.channel pc.2 := (channels _).trans (if_neg seen)
      by_cases here : (s.channel pc.2).source = .clip pc.1.1 pc.1.2
      · have on : (t.channel pc.2).source = .clip pc.1.1 pc.1.2 := own ▸ here
        have report : t.changeReport pc.2 ((s.channel pc.2).onTrain x next) .angleLoss =
            [s.lossReport x next pc.2] := by
          unfold State.changeReport State.lossReport
          rw [own, if_neg (fun h => Source.noConfusion (here.symm.trans h.2))]
          simp [Channel.onTrain, State.sourceTrain]
        have op : t.loseOn x next pc =
            (t.cutProgramme pc.2 .aborted).commit pc.2 .angleLoss ((s.channel pc.2).onTrain x next) := by
          rw [State.loseOn, if_pos on, State.loseAngle]
          simp only [cutProgramme_channel, own]
          rfl
        rw [if_pos here, op]
        refine ⟨cs ++ [pc.2], aborts.step rfl seen (by rw [own]) (by simp [Channel.onTrain]) report, fun c => ?_,
          fun c => by simp [mem c], fun nodup => by rw [all (List.nodup_append.mp nodup).1]⟩
        by_cases own' : c = pc.2
        · subst own'
          rw [cutProgramme_commit, played_channel_self, if_pos (by simp)]
          simp [Channel.leave, Channel.onTrain]
        · rw [cutProgramme_commit, played_channel_ne _ _ _ _ _ _ _ own', channels]
          simp [own']
      · have off : ¬(t.channel pc.2).source = .clip pc.1.1 pc.1.2 := own ▸ here
        rw [State.loseOn, if_neg off, if_neg here, List.append_nil]
        exact ⟨cs, aborts, channels, mem, all⟩

/-! ## The parts together -/

section parts
variable (s : State) (x : TrainId) (e : ChainEntry)

/-- The clips and angles a reclaim of entry e on train x changes. -/
abbrev State.reclaimOf : Clip → Angle → Option (Angle × TrimCase) :=
  reclaims (s.trainWithout x e) x e.first e.last

/-- The reports of the clips reached and of the heads pushed, in order (log 14). -/
def State.reachReports : List ReportBody :=
  (s.clips.filter (Clip.isReached (s.reclaimOf x e))).map
      (Clip.reachReport (s.reclaimOf x e) x (.serials e.first e.last)) ++
    (allChannels.filter (s.headOn x e.first e.last)).map (s.pushReport x (s.serialAfter x e))

/-- The second part: the clips reached, changed and reported in id order (R134, R135). -/
def State.clipsReached : State :=
  { s.unlinked x e with
    clips := s.clips.foldl (reachTable (s.reclaimOf x e)) s.clips
    reports := (((s.clips.filter (Clip.isReached (s.reclaimOf x e))).map
      (Clip.reachReport (s.reclaimOf x e) x (.serials e.first e.last))).foldl State.raise s).reports }

/-- A reclaim, in its parts: the chain, the anchors, the clips and the heads pushed leave u; then the channels that
lose their angle have their programmes aborted. -/
theorem reclaim_parts :
    ∃ (u : State) (cs : List ChannelId), u = { s.unlinked x e with
        clips := s.clips.foldl (reachTable (s.reclaimOf x e)) s.clips, channels := u.channels
        reports := ((s.reachReports x e).foldl State.raise s).reports } ∧
      (∀ c, u.channel c =
        if s.headOn x e.first e.last c then { s.channel c with head := s.serialAfter x e * 1200 } else s.channel c) ∧
      u.Aborts (s.reclaim x e) (s.lossReport x (s.serialAfter x e)) cs ∧
      (∀ c, (s.reclaim x e).channel c =
        if c ∈ cs then (s.channel c).onTrain x (s.serialAfter x e) else u.channel c) ∧
      (∀ c, c ∈ cs ↔ c ∈ s.losing (s.clips.flatMap (Clip.anglesLost (s.reclaimOf x e)))) ∧
      ((s.losing (s.clips.flatMap (Clip.anglesLost (s.reclaimOf x e)))).Nodup →
        cs = s.losing (s.clips.flatMap (Clip.anglesLost (s.reclaimOf x e)))) := by
  have train : (s.unlinked x e).train x = s.trainWithout x e := by
    rw [State.unlinked, setMap_train, setTrain_train_self]
  have clips : (s.unlinked x e).reclaimClips x e.first e.last =
      (s.clipsReached x e, s.clips.flatMap (Clip.anglesLost (s.reclaimOf x e))) := by
    refine (reachClips_eq (reclaims ((s.unlinked x e).train x) x e.first e.last) x (.serials e.first e.last) s.clips
      (s.unlinked x e) []).trans ?_
    rw [train, raises_reports_congr (s := s) (t := s.unlinked x e) _ rfl rfl]
    rfl
  have parts : s.reclaim x e = (s.clips.flatMap (Clip.anglesLost (s.reclaimOf x e))).foldl
      (State.loseAngles x (s.serialAfter x e)) (allChannels.foldl
        (State.pushHead x e.first e.last (s.serialAfter x e)) (s.clipsReached x e)) := by
    have whole : s.reclaim x e = ((s.unlinked x e).reclaimClips x e.first e.last).2.foldl
        (State.loseAngles x (s.serialAfter x e)) (allChannels.foldl
          (State.pushHead x e.first e.last (s.serialAfter x e))
            ((s.unlinked x e).reclaimClips x e.first e.last).1) := rfl
    rw [whole, clips]
  rw [parts]
  obtain ⟨same, channels⟩ := pushHeads_eq (s.clipsReached x e) x e.first e.last (s.serialAfter x e)
  generalize allChannels.foldl (State.pushHead x e.first e.last (s.serialAfter x e)) _ = u at same channels
  obtain ⟨cs, aborts, moved, mem, all⟩ := loseAngles_aborts u x (s.serialAfter x e)
    (s.clips.flatMap (Clip.anglesLost (s.reclaimOf x e)))
  have known : ∀ c, u.channel c =
      if s.headOn x e.first e.last c then { s.channel c with head := s.serialAfter x e * 1200 } else s.channel c :=
    channels
  -- a pushed head leaves the state and the source
  have kept : ∀ c, (u.channel c).state = (s.channel c).state ∧ (u.channel c).source = (s.channel c).source := by
    intro c
    rw [known]
    split <;> exact ⟨rfl, rfl⟩
  have losing : u.losing (s.clips.flatMap (Clip.anglesLost (s.reclaimOf x e))) =
      s.losing (s.clips.flatMap (Clip.anglesLost (s.reclaimOf x e))) := by
    simp only [State.losing, (kept _).2]
  have reports : u.lossReport x (s.serialAfter x e) = s.lossReport x (s.serialAfter x e) := by
    funext c
    simp only [State.lossReport, (kept c).1]
  rw [losing] at mem all
  rw [reports] at aborts
  refine ⟨u, cs, ?_, known, aborts, fun c => ?_, mem, all⟩
  · have all : (((allChannels.filter ((s.clipsReached x e).headOn x e.first e.last)).map
        ((s.clipsReached x e).pushReport x (s.serialAfter x e))).foldl State.raise (s.clipsReached x e)).reports =
        ((s.reachReports x e).foldl State.raise s).reports := by
      rw [State.reachReports, List.foldl_append]
      exact raises_reports_congr _ rfl (raises_time s _).symm
    rw [all] at same
    exact same
  · rw [moved c]
    refine if_ctx_congr Iff.rfl (fun hc => ?_) fun _ => rfl
    -- a channel on a clip has not been pushed
    have off : s.headOn x e.first e.last c = false := by
      have := (mem c).mp hc
      simp only [State.losing, List.mem_flatMap, List.mem_filter, decide_eq_true_eq] at this
      obtain ⟨p, -, -, clip⟩ := this
      simp [State.headOn, clip]
    rw [known, off]
    rfl

end parts

end Sys2Proof.Machine
end

section
/-! What a reclaim leaves, as its two statements have it (R22, R23, R38, R91, R134, R135). -/

namespace Sys2Proof.Machine

/-! ## The angles a reclaim reaches -/

/-- The angle is present on train x, of a clip that is not locked, and shares a serial with a to b (R134). -/
def Clip.reaches (k : Clip) (x : TrainId) (a b : Nat) (g : Angle) : Bool :=
  decide (k.lock = .unlocked) && g.present && decide (g.train = x) && decide (g.inSerial ≤ b ∧ a ≤ g.outSerial)

/-- The first case of Table 7-2 that fits. -/
def Angle.caseOf (a b : Nat) (g : Angle) : TrimCase :=
  if a ≤ g.inSerial then (if g.outSerial ≤ b then .case1 else .case2)
  else if g.outSerial ≤ b then .case3 else .case4

section reaches
variable {t : Train} {x : TrainId} {a b : Nat} {k : Clip}

theorem reaches_iff {g : Angle} : k.reaches x a b g = true ↔ k.lock = .unlocked ∧ g.reached x a b = true := by
  simp [Clip.reaches, Angle.reached, and_assoc]

theorem reclaims_of_reaches {g : Angle} (h : k.reaches x a b g = true) :
    reclaims t x a b k g = some (g.reclaim t a b) := if_pos (reaches_iff.mp h)

theorem reclaims_of_not_reaches {g : Angle} (h : k.reaches x a b g = false) : reclaims t x a b k g = none :=
  if_neg fun reached => Bool.false_ne_true (h.symm.trans (reaches_iff.mpr reached))

theorem reclaim_case (g : Angle) : (g.reclaim t a b).2 = g.caseOf a b := by
  unfold Angle.reclaim Angle.caseOf
  by_cases begins : a ≤ g.inSerial <;> by_cases ends : g.outSerial ≤ b <;> simp [begins, ends]

theorem reclaims_isSome (g : Angle) : (reclaims t x a b k g).isSome = k.reaches x a b g := by
  cases h : k.reaches x a b g with
  | true => rw [reclaims_of_reaches h]; rfl
  | false => rw [reclaims_of_not_reaches h]; rfl

theorem isReached_reclaims : k.isReached (reclaims t x a b) = k.angles.any (k.reaches x a b) := by
  rw [isReached_iff]
  simp only [reclaims_isSome]

theorem angleChanges_reclaims : angleChanges (reclaims t x a b k) k.angles =
    k.angles.zipIdx.filterMap fun gi => if k.reaches x a b gi.1 then some (gi.2, gi.1.caseOf a b) else none := by
  refine List.filterMap_congr fun gi _ => ?_
  cases h : k.reaches x a b gi.1 with
  | true =>
    rw [reclaims_of_reaches h, Option.map_some, reclaim_case]
    rfl
  | false =>
    rw [reclaims_of_not_reaches h]
    rfl

theorem anglesLost_reclaims : k.anglesLost (reclaims t x a b) =
    (k.angles.zipIdx.filter fun gi => k.reaches x a b gi.1 && decide (gi.1.caseOf a b = .case1)).map
      fun gi => (k.id, gi.2) := by
  unfold Clip.anglesLost
  rw [angleChanges_reclaims, List.filterMap_filterMap, ← List.filterMap_eq_map, List.filterMap_filter]
  refine List.filterMap_congr fun gi _ => ?_
  cases k.reaches x a b gi.1 with
  | true => by_cases inside : gi.1.caseOf a b = .case1 <;> simp [inside]
  | false => rfl

theorem caseOf_case1 {g : Angle} : g.caseOf a b = .case1 ↔ a ≤ g.inSerial ∧ g.outSerial ≤ b := by
  unfold Angle.caseOf
  by_cases begins : a ≤ g.inSerial <;> by_cases ends : g.outSerial ≤ b <;> simp [begins, ends]

/-- An angle that a reclaim takes is one of an unlocked clip, present on the train, wholly in the range. -/
theorem mem_anglesLost {p : Nat × Nat} (h : p ∈ k.anglesLost (reclaims t x a b)) :
    ∃ i g, p = (k.id, i) ∧ k.angles[i]? = some g ∧ k.lock = .unlocked ∧ g.present = true ∧ g.train = x ∧
      a ≤ g.inSerial ∧ g.outSerial ≤ b := by
  rw [anglesLost_reclaims, List.mem_map] at h
  obtain ⟨gi, member, rfl⟩ := h
  rw [List.mem_filter, Bool.and_eq_true, reaches_iff, decide_eq_true_eq, caseOf_case1] at member
  obtain ⟨place, ⟨unlocked, reached⟩, inside⟩ := member
  simp only [Angle.reached, Bool.and_eq_true, decide_eq_true_eq] at reached
  exact ⟨gi.2, gi.1, rfl, List.mem_zipIdx_iff_getElem?.mp place, unlocked, reached.1.1, reached.1.2, inside⟩

theorem zipIdx_places_nodup {α : Type} (l : List α) : (l.zipIdx.map (·.2)).Nodup := by
  rw [List.zipIdx_map_snd]
  exact List.nodup_range' ..

theorem anglesLost_nodup : (k.anglesLost (reclaims t x a b)).Nodup := by
  rw [anglesLost_reclaims]
  have places : ((k.angles.zipIdx.filter fun gi =>
      k.reaches x a b gi.1 && decide (gi.1.caseOf a b = .case1)).map (·.2)).Nodup :=
    (zipIdx_places_nodup k.angles).sublist (List.filter_sublist.map _)
  refine List.Nodup.of_map (f := Prod.snd) ?_
  rw [List.map_map]
  exact places

/-- No angle is lost twice, in a table with distinct ids. -/
theorem allAnglesLost_nodup {cs : List Clip} (sorted : cs.Pairwise fun j k => j.id < k.id) :
    (cs.flatMap (Clip.anglesLost (reclaims t x a b))).Nodup := by
  rw [List.nodup_flatMap]
  refine ⟨fun k _ => anglesLost_nodup, sorted.imp fun lt p hj hk => ?_⟩
  obtain ⟨i, -, rfl, -⟩ := mem_anglesLost hj
  obtain ⟨_, -, same, -⟩ := mem_anglesLost hk
  exact Nat.ne_of_lt lt (Prod.ext_iff.mp same).1

theorem losing_nodup (s : State) {lost : List (Nat × Nat)} (nodup : lost.Nodup) : (s.losing lost).Nodup := by
  rw [State.losing, List.nodup_flatMap]
  refine ⟨fun p _ => allChannels_distinct.filter _, nodup.imp fun ne c hp hq => ne ?_⟩
  simp only [List.mem_filter, decide_eq_true_eq] at hp hq
  have same := hp.2.symm.trans hq.2
  injection same with clip index
  exact Prod.ext clip index

/-- An angle that the reclaim reaches, by the case that fits (Table 7-2). -/
theorem reclaim_case1 {g : Angle} (h : g.caseOf a b = .case1) : (g.reclaim t a b).1 = { g with present := false } := by
  rw [Angle.reclaim, if_pos (caseOf_case1.mp h)]

theorem rehole_iff (g : Angle) : (g.rehole t).holed = true ↔
    ∃ q, g.inSerial ≤ q ∧ q ≤ g.outSerial ∧ t.retained q = false := holed_iff

theorem reclaim_case2 {g : Angle} {q : Nat} (h : g.caseOf a b = .case2) (order : ordered t.chain) (above : b < q)
    (kept : t.retained q = true) (least : ∀ m, b < m → m < q → t.retained m = false) :
    (g.reclaim t a b).1 = Angle.rehole { g with inSerial := q, trimmed := true } t := by
  unfold Angle.caseOf at h
  split at h
  · next begins =>
    split at h
    · cases h
    · next ends =>
      rw [Angle.reclaim, if_neg fun inside => ends inside.2, if_pos begins, leastAbove_eq order above kept least]
      rfl
  · split at h <;> cases h

theorem reclaim_case3 {g : Angle} {q : Nat} (h : g.caseOf a b = .case3) (order : ordered t.chain) (below : q < a)
    (kept : t.retained q = true) (greatest : ∀ m, q < m → m < a → t.retained m = false) :
    (g.reclaim t a b).1 = Angle.rehole { g with outSerial := q, trimmed := true } t := by
  unfold Angle.caseOf at h
  split at h
  · split at h <;> cases h
  · next begins =>
    split at h
    · next ends =>
      rw [Angle.reclaim, if_neg fun inside => begins inside.1, if_neg begins, if_pos ends,
        greatestBelow_eq order below kept greatest]
      rfl
    · cases h

theorem reclaim_case4 {g : Angle} (h : g.caseOf a b = .case4) : (g.reclaim t a b).1 = g.rehole t := by
  unfold Angle.caseOf at h
  split at h
  · split at h <;> cases h
  · next begins =>
    split at h
    · cases h
    · next ends => rw [Angle.reclaim, if_neg fun inside => begins inside.1, if_neg begins, if_neg ends]

/-- A clip's angle after the reclaim. -/
theorem reachedBy_angle {i : Nat} {g g' : Angle} (here : k.angles[i]? = some g)
    (after : (k.reachedBy (reclaims t x a b)).angles[i]? = some g') :
    (k.reaches x a b g = false → g' = g) ∧ (k.reaches x a b g = true → g' = (g.reclaim t a b).1) := by
  cases reached : k.isReached (reclaims t x a b) with
  | false =>
    rw [reachedBy_of_not_reached _ reached, here] at after
    obtain rfl := Option.some.inj after
    refine ⟨fun _ => rfl, fun reaches => ?_⟩
    rw [isReached_reclaims] at reached
    exact absurd reaches (List.any_eq_false.mp reached g (List.mem_of_getElem? here))
  | true =>
    rw [reachedBy_of_reached _ reached] at after
    have changed : ((reclaims t x a b k g).map (·.1)).getD g = g' := by
      simpa [Clip.derive, changedAngles, here] using after
    constructor
    · intro no
      rw [reclaims_of_not_reaches no] at changed
      exact changed.symm
    · intro reaches
      rw [reclaims_of_reaches reaches] at changed
      exact changed.symm

end reaches

/-! ## What a reclaim leaves alone -/

theorem reclaim_frame (s : State) (x : TrainId) (e : ChainEntry) :
    (s.reclaim x e).trains = (s.unlinked x e).trains ∧ (s.reclaim x e).maps = (s.unlinked x e).maps ∧
      (s.reclaim x e).locks = s.locks ∧ (s.reclaim x e).timebase = s.timebase ∧ (s.reclaim x e).guards = s.guards ∧
      s.keepsFaults (s.reclaim x e) ∧ s.keepsLinks (s.reclaim x e) ∧ (s.reclaim x e).freeReads = s.freeReads := by
  obtain ⟨u, cs, parts, -, aborts, -⟩ := reclaim_parts s x e
  rw [aborts.rest, parts]
  exact ⟨rfl, rfl, rfl, rfl, rfl, ⟨rfl, rfl⟩, ⟨rfl, rfl, rfl, rfl, rfl, rfl, rfl⟩, rfl⟩

theorem reclaim_train_self (s : State) (x : TrainId) (e : ChainEntry) :
    (s.reclaim x e).train x = s.trainWithout x e := by
  have trains := (reclaim_frame s x e).1
  have self : (s.unlinked x e).train x = s.trainWithout x e := by
    rw [State.unlinked, setMap_train, setTrain_train_self]
  rw [← self]
  simp only [State.train, trains]

theorem reclaim_train_ne (s : State) (x : TrainId) (e : ChainEntry) {y : TrainId} (h : y ≠ x) :
    (s.reclaim x e).train y = s.train y := by
  have trains := (reclaim_frame s x e).1
  have other : (s.unlinked x e).train y = s.train y := by
    rw [State.unlinked, setMap_train, setTrain_train_ne _ _ _ h]
  rw [← other]
  simp only [State.train, trains]

theorem reclaim_map_self (s : State) (x : TrainId) (e : ChainEntry) :
    (s.reclaim x e).map x = (s.map x).dropUnheld (s.trainWithout x e) := by
  have maps := (reclaim_frame s x e).2.1
  have self : (s.unlinked x e).map x = (s.map x).dropUnheld (s.trainWithout x e) := by
    rw [State.unlinked, setMap_map_self]
  rw [← self]
  simp only [State.map, maps]

theorem reclaim_map_ne (s : State) (x : TrainId) (e : ChainEntry) {y : TrainId} (h : y ≠ x) :
    (s.reclaim x e).map y = s.map y := by
  have maps := (reclaim_frame s x e).2.1
  have other : (s.unlinked x e).map y = s.map y := by
    rw [State.unlinked, setMap_map_ne _ _ _ h, setTrain_map]
  rw [← other]
  simp only [State.map, maps]

theorem reclaim_marks (s : State) (x : TrainId) (e : ChainEntry) (c : ChannelId) :
    ((s.reclaim x e).channel c).markIn = (s.channel c).markIn ∧
      ((s.reclaim x e).channel c).markOut = (s.channel c).markOut := by
  obtain ⟨u, cs, -, pushed, -, moved, -⟩ := reclaim_parts s x e
  rw [moved, pushed]
  split
  · exact ⟨rfl, rfl⟩
  · split <;> exact ⟨rfl, rfl⟩

/-- Settles O17: the parts of the reclaim, read field by field. -/
theorem reclaimEffects : Obligations.ReclaimEffects := by
  intro x s pre post e n law chain filled t a b on
  obtain ⟨order, -⟩ := law
  rw [chain] at order
  obtain ⟨-, -, locks, timebase, guards, faults, links, free⟩ := reclaim_frame s x e
  obtain ⟨u, cs, parts, pushed, aborts, moved, mem, -⟩ := reclaim_parts s x e
  have next : s.serialAfter x e = n.first := by
    rw [State.serialAfter, chain, entryAfter_eq order]
    rfl
  have without : (s.trainWithout x e).chain = pre ++ n :: post := by
    rw [State.trainWithout, chain, filter_extent order]
  have order' : ordered (s.trainWithout x e).chain := by
    rw [without]
    exact order.sublist (List.Sublist.append_left (List.sublist_cons_self ..) _)
  have headOn : ∀ c, s.headOn x e.first e.last c = true ↔ on c := fun c => decide_eq_true_iff
  have queue : ∀ c, u.queue c = s.queue c := fun c => by rw [parts]; rfl
  -- a channel that has not lost its angle keeps its queue
  have stays : ∀ c, c ∉ cs → t.channel c = u.channel c ∧ t.queue c = s.queue c := fun c fresh =>
    ⟨(moved c).trans (if_neg fresh), ((aborts.queue c).trans (if_neg fresh)).trans (queue c)⟩
  -- a channel that has lost its angle was on a clip
  have source : ∀ c, c ∈ cs → ∃ k ∈ s.clips, ∃ i g, k.angles[i]? = some g ∧ k.lock = .unlocked ∧
      g.present = true ∧ g.train = x ∧ a ≤ g.inSerial ∧ g.outSerial ≤ b ∧ (s.channel c).source = .clip k.id i := by
    intro c hc
    have lost := (mem c).mp hc
    simp only [State.losing, List.mem_flatMap, List.mem_filter, decide_eq_true_eq] at lost
    obtain ⟨p, ⟨k, hk, hp⟩, -, clip⟩ := lost
    obtain ⟨i, g, rfl, place, unlocked, present, train, inside⟩ := mem_anglesLost hp
    exact ⟨k, hk, i, g, place, unlocked, present, train, inside.1, inside.2, clip⟩
  refine ⟨?_, fun y hy => ⟨reclaim_train_ne s x e hy, reclaim_map_ne s x e hy⟩, ?_, ⟨(s.map x).holds (s.trainWithout x e),
    fun i g place => ?_, ?_⟩, fun c hc => ?_, fun c hc whole => ?_, locks, timebase, guards, faults, links, free,
    reclaim_marks s x e⟩
  · rw [reclaim_train_self, ← without]
    rfl
  · rw [reclaim_map_self]
    rfl
  · rw [reclaim_train_self]
    exact holds_iff order' place
  · rw [reclaim_map_self]
    exact dropUnheld_anchors _ _
  · have fresh : c ∉ cs := fun hcs => by
      obtain ⟨_, -, _, _, -, -, -, -, -, -, clip⟩ := source c hcs
      exact Source.noConfusion (clip.symm.trans hc.1)
    obtain ⟨channel, kept⟩ := stays c fresh
    rw [channel, pushed, if_pos ((headOn c).mpr hc), next]
    exact ⟨rfl, kept⟩
  · have fresh : c ∉ cs := fun hcs => by
      obtain ⟨k, hk, i, g, place, unlocked, present, train, low, high, clip⟩ := source c hcs
      exact whole k hk i g unlocked clip place present train ⟨low, high⟩
    obtain ⟨channel, kept⟩ := stays c fresh
    rw [channel, pushed, if_neg (mt (headOn c).mp hc)]
    exact ⟨rfl, kept⟩

/-! ## The clips, the channels that lose their angle and the reports -/

theorem endedOn_congr {s t : State} (h : ∀ c, t.queue c = s.queue c) (o : RunOutcome) (cs : List ChannelId) :
    t.endedOn o cs = s.endedOn o cs := by
  simp only [State.endedOn, h]

theorem abortReports_congr {s t : State} (h : ∀ c, t.queue c = s.queue c) (changed : ChannelId → ReportBody)
    (size : Nat) (cs : List ChannelId) : t.abortReports changed size cs = s.abortReports changed size cs := by
  induction cs generalizing size with
  | nil => rfl
  | cons c rest ih => simp only [State.abortReports, endedOn_congr h, ih]

/-- Aborts after other reports: what is logged and what is raised, from the state before them. -/
theorem State.Aborts.notes {s u t : State} {changed : ChannelId → ReportBody} {cs : List ChannelId}
    {bodies : List ReportBody} (h : u.Aborts t changed cs) (queue : ∀ c, u.queue c = s.queue c)
    (log : u.runLog = s.runLog) (reports : u.reports = (bodies.foldl State.raise s).reports) (time : u.time = s.time)
    (size : s.runLog.entries.length ≤ 256) :
    s.logged t (s.endedOn .aborted cs) ∧
      s.raised t (bodies ++ s.abortReports changed s.runLog.entries.length cs) := by
  have bound : u.runLog.entries.length ≤ 256 := by rw [log]; exact size
  have logged := noted_logged (s := u) (u.abortNotes changed cs) bound
  have raised := noted_raised (s := u) (u.abortNotes changed cs) bound
  rw [entriesOf_abortNotes, endedOn_congr queue] at logged
  rw [bodiesOf_abortNotes _ _ _ bound, abortReports_congr queue, log] at raised
  constructor
  · unfold State.logged at logged ⊢
    rw [h.rest]
    rw [log] at logged
    exact logged
  · unfold State.raised at raised ⊢
    rw [List.foldl_append, h.rest]
    exact raised.trans (raises_reports_congr _ reports (time.trans (raises_time ..).symm))

/-- Settles O18: the parts of the reclaim, with the clips by Table 7-2 and the reports in their order. -/
theorem reclaimReachesClips : Obligations.ReclaimReachesClips := by
  intro x s pre post e n law tables chain filled size t r a b reached caseOf holedOver becomes losing
  obtain ⟨order, -⟩ := law
  rw [chain] at order
  obtain ⟨u, cs, parts, pushed, aborts, moved, mem, all⟩ := reclaim_parts s x e
  have next : s.serialAfter x e = n.first := by
    rw [State.serialAfter, chain, entryAfter_eq order]
    rfl
  have without : (s.trainWithout x e).chain = pre ++ n :: post := by
    rw [State.trainWithout, chain, filter_extent order]
  have order' : ordered (s.trainWithout x e).chain := by
    rw [without]
    exact order.sublist (List.Sublist.append_left (List.sublist_cons_self ..) _)
  have train : r = s.trainWithout x e := reclaim_train_self s x e
  have sorted := clips_sorted tables
  have losing_eq : cs = losing := by
    rw [all (losing_nodup s (allAnglesLost_nodup sorted)), State.losing, List.flatMap_assoc]
    refine List.flatMap_congr fun k _ => ?_
    rw [anglesLost_reclaims, List.flatMap_map]
    rfl
  have queue : ∀ c, u.queue c = s.queue c := fun c => by rw [parts]; rfl
  have clips : t.clips = s.clips.map (Clip.reachedBy (s.reclaimOf x e)) := by
    rw [← reachTable_distinct _ sorted]
    exact (congrArg State.clips aborts.rest).trans (congrArg State.clips parts)
  have log : u.runLog = s.runLog := by rw [parts]; rfl
  have reports : u.reports = ((s.reachReports x e).foldl State.raise s).reports := by rw [parts]
  have time : u.time = s.time := by rw [parts]; rfl
  have notes := aborts.notes queue log reports time size
  rw [losing_eq, State.reachReports, next] at notes
  have isReached : ∀ k : Clip, k.isReached (s.reclaimOf x e) = k.angles.any (reached k) := fun k => isReached_reclaims
  refine ⟨Clip.reachedBy (s.reclaimOf x e), clips, fun k _ no => reachedBy_of_not_reached _ ((isReached k).trans no),
    fun k _ yes => ?_, ?_, notes.1, fun c hc => ?_, fun p => ?_⟩
  · have reachedBy := reachedBy_of_reached _ ((isReached k).trans yes)
    refine ⟨?_, ?_, fun i g g' here after => ?_⟩
    · rw [reachedBy]
      rfl
    · rw [reachedBy]
      simp [Clip.derive, changedAngles]
    · obtain ⟨outside, inside⟩ := reachedBy_angle here after
      refine ⟨outside, fun reaches => ?_⟩
      have g'_eq := inside reaches
      have holed : ∀ h : Angle, g' = h.rehole (s.trainWithout x e) → g'.inSerial = h.inSerial →
          g'.outSerial = h.outSerial → holedOver g' := by
        intro h eq first last
        change g'.holed = true ↔ ∃ q, g'.inSerial ≤ q ∧ q ≤ g'.outSerial ∧ r.retained q = false
        rw [first, last, train, eq]
        exact rehole_iff h
      change match g.caseOf a b with
        | .case1 => g' = { g with present := false }
        | .case2 => ∀ q, b < q → r.retained q = true → (∀ m, b < m → m < q → r.retained m = false) →
          g' = { g with inSerial := q, trimmed := true, holed := g'.holed } ∧ holedOver g'
        | .case3 => ∀ q, q < a → r.retained q = true → (∀ m, q < m → m < a → r.retained m = false) →
          g' = { g with outSerial := q, trimmed := true, holed := g'.holed } ∧ holedOver g'
        | _ => g' = { g with holed := g'.holed } ∧ holedOver g'
      cases fits : g.caseOf a b with
      | case1 => exact g'_eq.trans (reclaim_case1 fits)
      | case2 =>
        intro q above kept least
        rw [train] at kept least
        have eq := g'_eq.trans (reclaim_case2 fits order' above kept least)
        exact ⟨by rw [eq]; rfl, holed _ eq (by rw [eq]; rfl) (by rw [eq]; rfl)⟩
      | case3 =>
        intro q below kept greatest
        rw [train] at kept greatest
        have eq := g'_eq.trans (reclaim_case3 fits order' below kept greatest)
        exact ⟨by rw [eq]; rfl, holed _ eq (by rw [eq]; rfl) (by rw [eq]; rfl)⟩
      | case4 =>
        have eq := g'_eq.trans (reclaim_case4 fits)
        exact ⟨by rw [eq]; rfl, holed _ eq (by rw [eq]; rfl) (by rw [eq]; rfl)⟩
      | discarded =>
        unfold Angle.caseOf at fits
        split at fits <;> split at fits <;> cases fits
  · have bodies : (s.clips.filter (Clip.isReached (s.reclaimOf x e))).map
        (Clip.reachReport (s.reclaimOf x e) x (.serials e.first e.last)) =
        (s.clips.filter fun k => k.angles.any (reached k)).map fun k =>
          if (k.reachedBy (s.reclaimOf x e)).state = .lost then .lost k.id x (.serials a b) .lost
          else .trimmed k.id x (.serials a b) (k.reachedBy (s.reclaimOf x e)).state
            (k.angles.zipIdx.filterMap fun gi => if reached k gi.1 then some (gi.2, caseOf gi.1) else none) := by
      rw [List.filter_congr fun k _ => isReached k]
      refine List.map_congr_left fun k _ => ?_
      unfold Clip.reachReport
      refine if_ctx_congr Iff.rfl (fun lost => by rw [lost]; rfl) fun _ => ?_
      rw [show angleChanges (s.reclaimOf x e k) k.angles = _ from angleChanges_reclaims]
      rfl
    have raised := notes.2
    rw [bodies] at raised
    exact raised
  · rw [moved c, if_pos (losing_eq ▸ hc), aborts.queue c, if_pos (losing_eq ▸ hc), queue, next]
    exact ⟨rfl, rfl⟩
  · have single : ∀ p q c, (u.panel p).binding = some c → (u.panel q).binding = some c → p = q := by
      rw [parts]
      exact tables.2.2.2
    have panels : ∀ q, u.panel q = s.panel q := fun q => by rw [parts]; rfl
    have states : ∀ c, (u.channel c).state = (s.channel c).state := fun c => by
      rw [pushed]
      split <;> rfl
    have kept := aborts.panel single p
    rw [panels, losing_eq] at kept
    simp only [states] at kept
    exact kept

end Sys2Proof.Machine
end

section
/-! The discard of a train's material (R6, R119, R136, R163), CONFIGURE_TRAIN and RELEASE_TRAIN that make one, and
STOP_TRAIN (R8, R9, R11). -/

namespace Sys2Proof.Machine

/-! ## The clips a discard reaches -/

/-- The angles a discard of train x changes, and how (R136). -/
def discards (x : TrainId) (_ : Clip) (g : Angle) : Option (Angle × TrimCase) :=
  if g.present ∧ g.train = x then some ({ g with present := false }, .discarded) else none

/-- The angle is lost to a discard of train x. -/
def Angle.losesTo (x : TrainId) (g : Angle) : Bool := g.present && decide (g.train = x)

/-- A clip after a discard of train x (R136). -/
def Clip.afterDiscard (x : TrainId) (k : Clip) : Clip :=
  let angles := k.angles.map fun g => if g.losesTo x then { g with present := false } else g
  if k.angles.any (Angle.losesTo x) then { k with angles := angles, state := clipStateOf angles } else k

section clips
variable {x : TrainId} {k : Clip}

theorem discards_eq (g : Angle) : discards x k g =
    if g.losesTo x then some ({ g with present := false }, .discarded) else none :=
  if_congr (by simp [Angle.losesTo]) rfl rfl

theorem isReached_discards : k.isReached (discards x) = k.angles.any (Angle.losesTo x) := by
  rw [isReached_iff]
  refine congrArg _ (funext fun g => ?_)
  rw [discards_eq]
  cases g.losesTo x <;> rfl

theorem changedAngles_discards : changedAngles (discards x k) k.angles =
    k.angles.map fun g => if g.losesTo x then { g with present := false } else g := by
  refine List.map_congr_left fun g _ => ?_
  rw [discards_eq]
  cases g.losesTo x <;> rfl

theorem reachedBy_discards : k.reachedBy (discards x) = k.afterDiscard x := by
  unfold Clip.afterDiscard
  cases reached : k.angles.any (Angle.losesTo x) with
  | false =>
    rw [reachedBy_of_not_reached _ (isReached_discards.trans reached)]
    rfl
  | true =>
    rw [reachedBy_of_reached _ (isReached_discards.trans reached), changedAngles_discards]
    rfl

theorem angleChanges_discards : angleChanges (discards x k) k.angles =
    k.angles.zipIdx.filterMap fun gi => if gi.1.losesTo x then some (gi.2, .discarded) else none := by
  refine List.filterMap_congr fun gi _ => ?_
  rw [discards_eq]
  cases gi.1.losesTo x <;> rfl

/-- A discard leaves every angle's train. -/
theorem afterDiscard_trains (i : Nat) :
    ((k.afterDiscard x).angles[i]?).map (·.train) = (k.angles[i]?).map (·.train) := by
  unfold Clip.afterDiscard
  split
  · dsimp only
    rw [List.getElem?_map, Option.map_map]
    refine congrArg (fun f => Option.map f k.angles[i]?) (funext fun g => ?_)
    dsimp only [Function.comp]
    split <;> rfl
  · rfl

end clips

/-! ## The parts of a discard -/

/-- The reports of the clips a discard reaches, in id order (R136). -/
def State.discardReports (s : State) (x : TrainId) : List ReportBody :=
  (s.clips.filter (Clip.isReached (discards x))).map (Clip.reachReport (discards x) x .wholeTrain)

/-- The first part of a discard: the chain and the anchors emptied. -/
def State.emptied (s : State) (x : TrainId) : State :=
  (s.setTrain x { s.train x with chain := [], reserved := none, inFlight := none }).setMap x .initial

/-- The first two parts of a discard: the chain and the anchors emptied, the clips reached. -/
def State.cleared (s : State) (x : TrainId) : State :=
  { s.emptied x with
    clips := s.clips.foldl (reachTable (discards x)) s.clips
    reports := ((s.discardReports x).foldl State.raise s).reports }

/-- The marks of every channel dropped, one channel after the other (R119). -/
theorem dropMarks_foldl (s : State) (x : TrainId) :
    let r := allChannels.foldl (fun s c => s.setChannel c ((s.channel c).dropMarks x)) s
    r = { s with channels := r.channels } ∧ ∀ c, r.channel c = (s.channel c).dropMarks x := by
  have visits := foldl_visits (op := fun t c => State.setChannel t c ((t.channel c).dropMarks x))
    (P := fun done t => t = { s with channels := t.channels } ∧
      ∀ c, t.channel c = if c ∈ done then (s.channel c).dropMarks x else s.channel c)
    (fun done c t fresh ⟨same, channels⟩ => by
      have own : t.channel c = s.channel c := (channels c).trans (if_neg fresh)
      refine ⟨congrArg (fun u : State => { u with channels := (t.setChannel c ((t.channel c).dropMarks x)).channels })
        same, fun d => ?_⟩
      by_cases other : d = c
      · subst other
        rw [setChannel_channel_self, own]
        simp
      · rw [setChannel_channel_ne _ _ _ other, channels]
        simp [other])
    allChannels_distinct (b := s) ⟨rfl, fun c => (if_neg List.not_mem_nil).symm⟩
  exact ⟨visits.1, fun c => (visits.2 c).trans (if_pos (mem_allChannels c))⟩

/-! ## The channels a discard reaches -/

/-- Channel c's source lies on train x. -/
def State.sourceOn (s : State) (x : TrainId) (c : ChannelId) : Bool :=
  decide (s.sourceTrain (s.channel c).source = some x)

/-- Channel c is a follower whose source lies on train x. -/
def State.followsOn (s : State) (x : TrainId) (c : ChannelId) : Bool :=
  s.sourceOn x c && decide ((s.channel c).state = .following) && (leaderOf c).isSome

/-- Channel c's gang ends when the channels done are reached: it is one of them and a follower on train x, or its
follower is. -/
def State.gangEnds (s : State) (x : TrainId) (done : List ChannelId) (c : ChannelId) : Bool :=
  (decide (c ∈ done) && s.followsOn x c) || (followerOf c).any fun f => decide (f ∈ done) && s.followsOn x f

/-- A channel's record as UNLOAD leaves it. -/
def Channel.emptied (ch : Channel) : Channel :=
  { ch with
    state := .idle, source := .noSource, head := 0, speed := 0, target := 0, bounce := none, edgeHold := false
    jogAcc := 0 }

/-- The report of a channel reached by a discard (R6). -/
def State.discardReport (s : State) (c : ChannelId) : ReportBody :=
  .stateChanged c (s.channel c).state .idle ⟨.noSource, none⟩ 0 .trainDiscard

/-- A channel's record with its role as a discard of the channels done leaves it. -/
def State.ungangedBy (s : State) (x : TrainId) (done : List ChannelId) (c : ChannelId) : Channel :=
  { s.channel c with role := if s.gangEnds x done c then .noGang else (s.channel c).role }

theorem leaderOf_any (f l : ChannelId) :
    decide (leaderOf f = some l) = (followerOf l).any fun d => decide (d = f) := by
  revert f l
  decide

theorem leaderOf_ne {f l : ChannelId} (h : leaderOf f = some l) : l ≠ f := by
  revert f l
  decide

section channels
variable {s : State} {x : TrainId}

theorem gangEnds_append (done : List ChannelId) (c d : ChannelId) : s.gangEnds x (done ++ [c]) d =
    (s.gangEnds x done d || (s.followsOn x c && (decide (d = c) || decide (leaderOf c = some d)))) := by
  rw [leaderOf_any]
  have own : (decide (d ∈ done ++ [c]) && s.followsOn x d) =
      ((decide (d ∈ done) && s.followsOn x d) || (s.followsOn x c && decide (d = c))) := by
    by_cases h : d = c
    · subst h
      simp [Bool.and_comm]
    · simp [h]
  have fol : ((followerOf d).any fun f => decide (f ∈ done ++ [c]) && s.followsOn x f) =
      (((followerOf d).any fun f => decide (f ∈ done) && s.followsOn x f) ||
        (s.followsOn x c && (followerOf d).any fun f => decide (f = c))) := by
    cases followerOf d with
    | none => simp
    | some f =>
      by_cases h : f = c
      · subst h
        simp [Bool.and_comm]
      · simp [h]
  rw [State.gangEnds, State.gangEnds, own, fol, Bool.and_or_distrib_left, Bool.or_assoc, Bool.or_assoc]
  exact congrArg _ (Bool.or_left_comm ..)

/-- A gang left: both roles become NONE, and nothing else changes. -/
theorem leaveGang_eq (t : State) (c : ChannelId) :
    t.leaveGang c = { t with channels := (t.leaveGang c).channels } ∧ ∀ d, (t.leaveGang c).channel d =
      if (leaderOf c).isSome = true ∧ (d = c ∨ leaderOf c = some d) then { t.channel d with role := .noGang }
      else t.channel d := by
  unfold State.leaveGang
  cases found : leaderOf c with
  | none => exact ⟨rfl, fun d => by simp⟩
  | some l =>
    refine ⟨rfl, fun d => ?_⟩
    have apart : l ≠ c := leaderOf_ne found
    dsimp only
    by_cases isLeader : d = l
    · subst isLeader
      simp [State.setRole, setChannel_channel_ne _ _ _ apart]
    · by_cases own : d = c
      · subst own
        simp [State.setRole, setChannel_channel_ne _ _ _ isLeader]
      · simp [State.setRole, setChannel_channel_ne _ _ _ isLeader, setChannel_channel_ne _ _ _ own, own, Ne.symm isLeader]

/-- The channels whose source lies on the train go to IDLE one after the other, a follower leaving its gang (step 4 of
R6, R163). -/
theorem discardChannels_aborts (s : State) (x : TrainId) :
    let t := allChannels.foldl (State.discardChannel x) s
    s.Aborts t s.discardReport (allChannels.filter (s.sourceOn x)) ∧ ∀ c, t.channel c =
      if s.sourceOn x c then (s.ungangedBy x allChannels c).emptied else s.ungangedBy x allChannels c := by
  have visits := foldl_visits (op := State.discardChannel x)
    (P := fun done t => s.Aborts t s.discardReport (done.filter (s.sourceOn x)) ∧ ∀ c, t.channel c =
      if c ∈ done ∧ s.sourceOn x c = true then (s.ungangedBy x done c).emptied else s.ungangedBy x done c)
    (fun done c t fresh ⟨aborts, channels⟩ => by
      have own : t.channel c = s.ungangedBy x done c := (channels c).trans (if_neg fun h => fresh h.1)
      have here : t.sourceTrain (t.channel c).source = some x ↔ s.sourceOn x c = true := by
        rw [aborts.sourceTrain, own, State.sourceOn, decide_eq_true_eq]
        rfl
      by_cases on : s.sourceOn x c = true
      · -- the channel is reached: a follower leaves its gang, and then the channel is emptied
        obtain ⟨u, hu, same, left⟩ : ∃ u, (if (t.channel c).state = .following then t.leaveGang c else t) = u ∧
            u = { t with channels := u.channels } ∧ ∀ d, u.channel d =
              if s.followsOn x c = true ∧ (d = c ∨ leaderOf c = some d) then { t.channel d with role := .noGang }
              else t.channel d := by
          refine ⟨_, rfl, ?_⟩
          obtain ⟨same, left⟩ := leaveGang_eq t c
          by_cases following : (s.channel c).state = .following
          · have follows : s.followsOn x c = (leaderOf c).isSome := by simp [State.followsOn, on, following]
            rw [if_pos (show (t.channel c).state = .following by rw [own]; exact following), follows]
            exact ⟨same, left⟩
          · have follows : s.followsOn x c = false := by simp [State.followsOn, following]
            rw [if_neg (show ¬(t.channel c).state = .following by rw [own]; exact following), follows]
            exact ⟨rfl, fun d => by simp⟩
        have op : t.discardChannel x c =
            (u.cutProgramme c .aborted).commit c .trainDiscard (u.channel c).emptied := by
          rw [State.discardChannel, if_pos (here.mpr on)]
          dsimp only
          rw [hu, State.unloadChannel]
          simp only [cutProgramme_channel]
          rfl
        have role : ∀ d, s.ungangedBy x (done ++ [c]) d =
            if s.followsOn x c = true ∧ (d = c ∨ leaderOf c = some d) then { s.ungangedBy x done d with role := .noGang }
            else s.ungangedBy x done d := by
          intro d
          unfold State.ungangedBy
          rw [gangEnds_append]
          by_cases ends : s.followsOn x c = true ∧ (d = c ∨ leaderOf c = some d)
          · have ends' : (s.followsOn x c && (decide (d = c) || decide (leaderOf c = some d))) = true := by
              simpa using ends
            rw [ends', Bool.or_true, if_pos rfl, if_pos ends]
          · have ends' : (s.followsOn x c && (decide (d = c) || decide (leaderOf c = some d))) = false := by
              rw [Bool.eq_false_iff]
              simpa using ends
            rw [ends', Bool.or_false, if_neg ends]
        have after : ∀ d, u.channel d =
            if d ∈ done ∧ s.sourceOn x d = true then (s.ungangedBy x (done ++ [c]) d).emptied
            else s.ungangedBy x (done ++ [c]) d := by
          intro d
          rw [left, role, channels]
          split <;> split <;> rfl
        have ownU : u.channel c = s.ungangedBy x (done ++ [c]) c := (after c).trans (if_neg fun h => fresh h.1)
        have report : u.changeReport c (u.channel c).emptied .trainDiscard = [s.discardReport c] := by
          have source : (u.channel c).source ≠ .noSource := by
            rw [ownU]
            intro none
            have on' : s.sourceTrain (s.channel c).source = some x := of_decide_eq_true on
            rw [show (s.channel c).source = .noSource from none] at on'
            cases on'
          unfold State.changeReport State.discardReport
          rw [if_neg fun h => source h.2, ownU]
          simp [Channel.emptied, State.ungangedBy, State.sourceTrain]
        rw [op, List.filter_append, List.filter_cons_of_pos on, List.filter_nil]
        refine ⟨aborts.step same (fun seen => fresh (List.mem_of_mem_filter seen)) (by rw [ownU]; rfl)
          (by simp [Channel.emptied]) report, fun d => ?_⟩
        rw [cutProgramme_commit]
        by_cases other : d = c
        · subst other
          rw [played_channel_self, if_pos ⟨by simp, on⟩, ← ownU]
          simp [Channel.leave, Channel.emptied]
        · rw [played_channel_ne _ _ _ _ _ _ _ other, after]
          simp [other]
      · -- the channel is passed over
        have follows : s.followsOn x c = false := by simp [State.followsOn, on]
        have role : ∀ d, s.ungangedBy x (done ++ [c]) d = s.ungangedBy x done d := by
          intro d
          unfold State.ungangedBy
          rw [gangEnds_append, follows, Bool.false_and, Bool.or_false]
        rw [State.discardChannel, if_neg (mt here.mp on), List.filter_append, List.filter_cons_of_neg on,
          List.filter_nil, List.append_nil]
        refine ⟨aborts, fun d => ?_⟩
        rw [role, channels]
        refine if_congr ?_ rfl rfl
        by_cases other : d = c
        · subst other
          simp [on]
        · simp [other])
    allChannels_distinct (b := s) ⟨aborts_nil _, fun c => by simp [State.ungangedBy, State.gangEnds]⟩
  exact ⟨visits.1, fun c => (visits.2 c).trans (if_congr (and_iff_right (mem_allChannels c)) rfl rfl)⟩

end channels

end Sys2Proof.Machine
end

section
/-! CONFIGURE_TRAIN and RELEASE_TRAIN, which discard a train's material, and STOP_TRAIN (R6, R8, R9, R11). -/

namespace Sys2Proof.Machine

section discard
variable {s : State} {x : TrainId}

/-- A discard, in its parts: v is the state with the train, the anchors, the clips and the marks reached; then the
channels are. -/
theorem discard_parts (s : State) (x : TrainId) :
    ∃ v : State, v = { s.cleared x with channels := v.channels } ∧
      (∀ c, v.channel c = (s.channel c).dropMarks x) ∧
      v.Aborts (s.discard x) v.discardReport (allChannels.filter (v.sourceOn x)) ∧
      ∀ c, (s.discard x).channel c =
        if v.sourceOn x c then (v.ungangedBy x allChannels c).emptied else v.ungangedBy x allChannels c := by
  have clips : (s.emptied x).discardClips x = s.cleared x := by
    refine (congrArg Prod.fst (reachClips_eq (discards x) x .wholeTrain _ (s.emptied x) [])).trans ?_
    dsimp only
    rw [raises_reports_congr (s := s) (t := s.emptied x) _ rfl rfl]
    rfl
  have parts : s.discard x = allChannels.foldl (State.discardChannel x)
      (allChannels.foldl (fun t c => t.setChannel c ((t.channel c).dropMarks x)) (s.cleared x)) := by
    rw [← clips]
    rfl
  obtain ⟨same, marks⟩ := dropMarks_foldl (s.cleared x) x
  rw [parts]
  generalize allChannels.foldl (fun t c => State.setChannel t c ((t.channel c).dropMarks x)) (s.cleared x) = v
    at same marks
  exact ⟨v, same, marks, discardChannels_aborts v x⟩

/-- In a table with distinct ids the clips are what a discard makes of each. -/
theorem cleared_clips (law : s.tableLaw) : (s.cleared x).clips = s.clips.map (Clip.afterDiscard x) := by
  refine (reachTable_distinct _ (clips_sorted law)).trans (List.map_congr_left fun k _ => reachedBy_discards)

theorem afterDiscard_id (k : Clip) : (k.afterDiscard x).id = k.id := by
  rw [← reachedBy_discards, reachedBy_id]

/-- A discard moves no source to another train. -/
theorem cleared_sourceTrain (law : s.tableLaw) (src : Source) :
    (s.cleared x).sourceTrain src = s.sourceTrain src := by
  cases src with
  | noSource => rfl
  | train y => rfl
  | clip id i =>
    have found : (s.cleared x).clipOf id = (s.clipOf id).map (Clip.afterDiscard x) := by
      unfold State.clipOf
      rw [cleared_clips law, List.find?_map]
      simp only [Function.comp_def, afterDiscard_id]
    unfold State.sourceTrain State.angleOf
    dsimp only
    rw [found]
    cases s.clipOf id with
    | none => rfl
    | some k => exact afterDiscard_trains i

theorem discard_frame (s : State) (x : TrainId) :
    (s.discard x).trains = (s.emptied x).trains ∧ (s.discard x).maps = (s.emptied x).maps ∧
      (s.discard x).clips = (s.cleared x).clips ∧ (s.discard x).locks = s.locks ∧
      (s.discard x).timebase = s.timebase ∧ (s.discard x).guards = s.guards ∧ s.keepsFaults (s.discard x) ∧
      s.keepsLinks (s.discard x) ∧ (s.discard x).freeReads = s.freeReads := by
  obtain ⟨v, parts, -, aborts, -⟩ := discard_parts s x
  rw [aborts.rest, parts]
  exact ⟨rfl, rfl, rfl, rfl, rfl, rfl, ⟨rfl, rfl⟩, ⟨rfl, rfl, rfl, rfl, rfl, rfl, rfl⟩, rfl⟩

theorem discard_train (s : State) (x y : TrainId) : (s.discard x).train y = (s.emptied x).train y := by
  simp only [State.train, (discard_frame s x).1]

theorem discard_map (s : State) (x y : TrainId) : (s.discard x).map y = (s.emptied x).map y := by
  simp only [State.map, (discard_frame s x).2.1]

theorem discard_train_self (s : State) (x : TrainId) :
    (s.discard x).train x = { s.train x with chain := [], reserved := none, inFlight := none } := by
  rw [discard_train, State.emptied, setMap_train, setTrain_train_self]

theorem discard_train_ne (s : State) (x : TrainId) {y : TrainId} (h : y ≠ x) :
    (s.discard x).train y = s.train y := by
  rw [discard_train, State.emptied, setMap_train, setTrain_train_ne _ _ _ h]

/-- A discard leaves what the statement says (R6). -/
theorem discard_discarded (law : s.tableLaw) : s.discarded (s.discard x) x := by
  obtain ⟨v, parts, marks, aborts, channels⟩ := discard_parts s x
  have state : ∀ c, (v.channel c).state = (s.channel c).state := fun c => by rw [marks]; rfl
  have on : ∀ c, v.sourceOn x c = s.sourceOn x c := by
    intro c
    have source : v.sourceTrain (v.channel c).source = s.sourceTrain (s.channel c).source := by
      rw [marks, ← cleared_sourceTrain (x := x) law, parts]
      rfl
    rw [State.sourceOn, source]
    rfl
  have follows : ∀ c, v.followsOn x c = s.followsOn x c := fun c => by
    rw [State.followsOn, on, state]
    rfl
  have ends : ∀ c, v.gangEnds x allChannels c = (s.followsOn x c || (followerOf c).any (s.followsOn x)) := by
    intro c
    simp only [State.gangEnds, mem_allChannels, decide_true, Bool.true_and, follows]
  have ending : allChannels.filter (v.sourceOn x) = allChannels.filter (s.sourceOn x) :=
    List.filter_congr fun c _ => on c
  have reports : v.discardReport = s.discardReport := funext fun c => by
    unfold State.discardReport
    rw [state]
  have queue : ∀ c, v.queue c = s.queue c := fun c => by rw [parts]; rfl
  have panel : ∀ p, v.panel p = s.panel p := fun p => by rw [parts]; rfl
  have log : v.runLog = s.runLog := by rw [parts]; rfl
  have raised : v.reports = ((s.discardReports x).foldl State.raise s).reports := by rw [parts]; rfl
  have time : v.time = s.time := by rw [parts]; rfl
  rw [ending, reports] at aborts
  refine ⟨?_, fun y hy => ⟨discard_train_ne s x hy, ?_⟩, fun _ => (discard_frame s x).2.2.1.trans (cleared_clips law),
    fun c => ?_, fun c => ?_, fun _ p => ?_, fun size => ?_, (discard_frame s x).2.2.2⟩
  · rw [discard_map]
    exact setMap_map_self ..
  · rw [discard_map, State.emptied, setMap_map_ne _ _ _ hy, setTrain_map]
  · rw [channels, on, State.ungangedBy, ends, marks]
    rfl
  · rw [aborts.queue, queue]
    refine if_congr ?_ rfl rfl
    rw [List.mem_filter]
    exact and_iff_right (mem_allChannels c)
  · have single : ∀ p q c, (v.panel p).binding = some c → (v.panel q).binding = some c → p = q := fun p q c => by
      rw [panel, panel]
      exact law.2.2.2 p q c
    rw [aborts.panel single, panel]
    refine if_congr (and_congr_right fun _ => ?_) rfl rfl
    cases (s.panel p).binding with
    | none => exact Iff.rfl
    | some c =>
      simp only [Option.any_some, decide_eq_true_eq, Bool.and_eq_true, List.mem_filter, mem_allChannels, true_and,
        state, State.sourceOn]
  · have notes := aborts.notes queue log raised time size
    refine ⟨notes.1, fun _ => ?_⟩
    have bodies : s.discardReports x = (s.clips.filter fun k => k.angles.any (Angle.losesTo x)).map fun k =>
        if (k.afterDiscard x).state = .lost then .lost k.id x .wholeTrain .lost
        else .trimmed k.id x .wholeTrain (k.afterDiscard x).state
          (k.angles.zipIdx.filterMap fun gi => if gi.1.losesTo x then some (gi.2, .discarded) else none) := by
      unfold State.discardReports
      rw [List.filter_congr fun k _ => isReached_discards]
      refine List.map_congr_left fun k _ => ?_
      unfold Clip.reachReport
      rw [reachedBy_discards, angleChanges_discards]
      exact if_ctx_congr Iff.rfl (fun lost => by rw [lost]) fun _ => rfl
    rw [bodies] at notes
    exact notes.2

/-- What a discard leaves does not speak of the train's own record. -/
theorem discarded_setTrain {t : State} (h : s.discarded t x) (r : Train) : s.discarded (t.setTrain x r) x := by
  obtain ⟨own, others, clips, channels, queues, panels, notes, rest⟩ := h
  exact ⟨own, fun y hy => ⟨(setTrain_train_ne _ _ _ hy).trans (others y hy).1, (others y hy).2⟩, clips, channels,
    queues, panels, notes, rest⟩

end discard

/-! ## The commands -/

/-- In the canonical form the list holds each extent's count, and no count of 0. -/
theorem lockCount_of_mem : ∀ {l : List (Nat × Nat)} {e n : Nat}, locksWf l = true → (e, n) ∈ l →
    lockCount l e = n ∧ 0 < n
  | (y, m) :: rest, e, n, wf, h => by
    rw [locksWf_cons] at wf
    simp only [Bool.and_eq_true, decide_eq_true_eq] at wf
    obtain ⟨⟨positive, above⟩, tail⟩ := wf
    rcases List.mem_cons.mp h with same | below
    · obtain ⟨rfl, rfl⟩ := Prod.mk.inj same
      exact ⟨if_pos rfl, positive⟩
    · obtain ⟨counted, some⟩ := lockCount_of_mem tail below
      have apart : y ≠ e := by
        rintro rfl
        have := lockCount_below rest above tail
        omega
      exact ⟨(if_neg apart).trans counted, some⟩

theorem poolLocked_none {s : State} {p : Option Pool} (wf : locksWf s.locks = true)
    (free : ∀ q e, p = some q → q.contains e = true → lockCount s.locks e = 0) : s.poolLocked p = false := by
  cases p with
  | none => rfl
  | some q =>
    refine List.any_eq_false.mpr fun l hl => ?_
    rw [Bool.and_eq_true, decide_eq_true_eq]
    rintro ⟨within, positive⟩
    have counted := (lockCount_of_mem wf hl).1
    rw [free q l.1 rfl within] at counted
    omega

/-- Settles O10. -/
theorem configureTrainAccepted : Obligations.ConfigureTrainAccepted := by
  intro tag a x u s hx ht law values count within state apart free
  have values' : ¬ConfigureValuesBad a := by
    rintro (bad | low | high)
    · exact bad values
    · omega
    · omega
  have idle : ¬((s.train x).state = .recording ∨ (s.train x).state = .stalled) := by
    rcases state with h | h <;> simp [h]
  have disjoint : ¬s.poolOverlaps x (askedPool a) = true := by
    intro h
    obtain ⟨y, q, ne, configured, pool, overlap⟩ := (poolOverlaps_iff ..).mp h
    have shared : a.first.toNat < q.first + q.count ∧ q.first < a.first.toNat + a.count.toNat :=
      of_decide_eq_true overlap
    have := apart y q ne configured pool
    omega
  have unlocked : ¬((s.train x).state = .idle ∧ s.poolLocked (s.train x).pool = true) := by
    rintro ⟨isIdle, locked⟩
    rw [poolLocked_none law.1 fun q e => free q e isIdle] at locked
    cases locked
  have done : configureTrain a s = .done ((s.discard x).setTrain x (configuredTrain (askedPool a) a.multiple.toNat))
      .empty := by
    rw [configureTrain_eq s hx, if_neg values', if_neg idle, if_neg disjoint, if_neg unlocked]
  exact ⟨_, accepted_of_done (exec_configureTrain ..) ht done, discarded_setTrain (discard_discarded law) _,
    setTrain_train_self ..⟩

theorem releaseTrain_idle {b : Byte} {x : TrainId} {s : State} (hb : b.toNat = x.val)
    (idle : (s.train x).state = .idle) : releaseTrain b s =
      if s.poolLocked (s.train x).pool then .refuse .locked
      else .done ((s.discard x).setTrain x { (s.discard x).train x with
        state := .unconfigured, pool := none, cursor := none, serialCounter := 0, firstFrame := false }) .empty := by
  unfold releaseTrain
  rw [trainOf_eq_some hb]
  simp only [idle]

/-- Settles O11. -/
theorem releaseAndStopTrain : Obligations.ReleaseAndStopTrain := by
  refine ⟨fun tag b x u s hb ht => ⟨fun state => ?_, fun state => ?_, fun q e idle pool inPool locked => ?_,
      fun idle law free => ?_⟩,
    fun tag b x u s hb ht => ⟨fun state => ?_, fun state => ?_, fun state => ?_⟩⟩
  · refine accepted_of_done (f := releaseTrain) rfl ht ?_
    unfold releaseTrain
    rw [trainOf_eq_some hb]
    simp only [state]
  · refine turnedAway_of_refuse (f := releaseTrain) rfl ht ?_
    unfold releaseTrain
    rw [trainOf_eq_some hb]
    rcases state with h | h <;> simp only [h]
  · refine turnedAway_of_refuse (f := releaseTrain) rfl ht ?_
    rw [releaseTrain_idle hb idle, pool, poolLocked_of_contains inPool locked]
    rfl
  · have done := releaseTrain_idle hb idle
    rw [poolLocked_none law.1 free, if_neg Bool.false_ne_true] at done
    refine ⟨_, accepted_of_done (f := releaseTrain) rfl ht done, discarded_setTrain (discard_discarded law) _, ?_⟩
    rw [setTrain_train_self, discard_train_self]
  · refine turnedAway_of_refuse (f := stopTrain) rfl ht ?_
    unfold stopTrain
    rw [trainOf_eq_some hb]
    simp only [state]
  · refine accepted_of_done (f := stopTrain) rfl ht ?_
    unfold stopTrain
    rw [trainOf_eq_some hb]
    simp only [state]
  · refine accepted_of_done (f := stopTrain) rfl ht ?_
    unfold stopTrain
    rw [trainOf_eq_some hb]
    rcases state with h | h <;> simp only [h]

end Sys2Proof.Machine
end

section
/-! The ring search and its candidate (R20, R21), START_TRAIN (R10), the stall and the change of extent (R24). -/

namespace Sys2Proof.Machine

/-! ## The ring search -/

section ring
variable {t : Train} {locks : List (Nat × Nat)}

theorem role_picked {p : Pool} {e : Nat} (pool : t.pool = some p) (within : p.contains e = true) :
    (t.role e = some .free ∨ t.role e = some .retained) ↔
      t.reserved ≠ some e ∧ t.current.map (·.extent) ≠ some e := by
  unfold Train.role
  rw [pool]
  dsimp only
  rw [if_pos within]
  by_cases reserved : t.reserved = some e
  · simp [reserved]
  · by_cases current : t.current.map (·.extent) = some e
    · simp [reserved, current]
    · by_cases retained : (t.chain.any fun c => c.extent == e) = true <;> simp [reserved, current, retained]

/-- An extent of the pool a ring search may pick: lock count 0, neither reserved nor current (R20). -/
def Train.fits (t : Train) (locks : List (Nat × Nat)) (e : Nat) : Prop :=
  lockCount locks e = 0 ∧ t.reserved ≠ some e ∧ t.current.map (·.extent) ≠ some e

/-- The extents of the lap in their order. -/
def Pool.visit (p : Pool) (cursor i : Nat) : Nat := p.first + (cursor - p.first + 1 + i) % p.count

theorem visit_contains {p : Pool} (cursor : Nat) {i : Nat} (h : i < p.count) :
    p.contains (p.visit cursor i) = true := by
  have := Nat.mod_lt (cursor - p.first + 1 + i) (show 0 < p.count by omega)
  rw [Pool.contains_iff, Pool.visit]
  omega

theorem candidate_eq {p : Pool} {cursor : Nat} (pool : t.pool = some p) (at' : t.cursor = some cursor) :
    t.candidate locks = ((List.range p.count).find? fun i => decide ((t.role (p.visit cursor i) = some .free ∨
      t.role (p.visit cursor i) = some .retained) ∧ lockCount locks (p.visit cursor i) = 0)).map (p.visit cursor) := by
  unfold Train.candidate Train.lap
  rw [pool, at']
  exact List.find?_map ..

theorem picked_iff {p : Pool} {cursor i : Nat} (pool : t.pool = some p) (h : i < p.count) :
    decide ((t.role (p.visit cursor i) = some .free ∨ t.role (p.visit cursor i) = some .retained) ∧
      lockCount locks (p.visit cursor i) = 0) = true ↔ t.fits locks (p.visit cursor i) := by
  rw [decide_eq_true_eq, role_picked pool (visit_contains cursor h)]
  exact and_comm

/-- The candidate is the first extent of the lap that fits. -/
theorem candidate_some_iff {p : Pool} {cursor e : Nat} (pool : t.pool = some p) (at' : t.cursor = some cursor) :
    t.candidate locks = some e ↔ ∃ i, i < p.count ∧ e = p.visit cursor i ∧ t.fits locks e ∧
      ∀ j, j < i → ¬t.fits locks (p.visit cursor j) := by
  rw [candidate_eq pool at', Option.map_eq_some_iff]
  refine exists_congr fun i => ?_
  rw [List.find?_range_eq_some, List.mem_range]
  constructor
  · rintro ⟨⟨picked, within, before⟩, rfl⟩
    refine ⟨within, rfl, (picked_iff pool within).mp picked, fun j hj fits => ?_⟩
    have := before j hj
    rw [(picked_iff pool (by omega)).mpr fits] at this
    cases this
  · rintro ⟨within, rfl, fits, before⟩
    refine ⟨⟨(picked_iff pool within).mpr fits, within, fun j hj => ?_⟩, rfl⟩
    rw [Bool.not_eq_true', ← Bool.not_eq_true]
    exact fun picked => before j hj ((picked_iff pool (by omega)).mp picked)

theorem candidate_none_iff {p : Pool} {cursor : Nat} (pool : t.pool = some p) (at' : t.cursor = some cursor) :
    t.candidate locks = none ↔ ∀ i, i < p.count → ¬t.fits locks (p.visit cursor i) := by
  rw [candidate_eq pool at', Option.map_eq_none_iff, List.find?_eq_none]
  refine forall_congr' fun i => ?_
  rw [List.mem_range]
  exact forall_congr' fun within => not_congr (picked_iff pool within)

/-- A candidate lies in the pool and fits. -/
theorem candidate_fits {e : Nat} (h : t.candidate locks = some e) :
    t.fits locks e ∧ ∃ p, t.pool = some p ∧ p.contains e = true := by
  cases pool : t.pool with
  | none => simp [Train.candidate, Train.lap, pool] at h
  | some p =>
    cases at' : t.cursor with
    | none => simp [Train.candidate, Train.lap, at'] at h
    | some cursor =>
      obtain ⟨i, within, rfl, fits, -⟩ := (candidate_some_iff pool at').mp h
      exact ⟨fits, p, rfl, visit_contains cursor within⟩

end ring

/-- Settles O16. -/
theorem ringSearch : Obligations.RingSearch := fun _ _ _ _ _ pool at' _ =>
  ⟨candidate_some_iff pool at', candidate_none_iff pool at'⟩

/-! ## Picking a candidate -/

theorem pick_picks (s : State) (x : TrainId) (c : Nat) : s.picks x c (s.pick x c) := by
  unfold State.picks State.pick
  cases found : (s.train x).chain.find? (fun d => d.extent == c) with
  | none =>
    refine .inl ⟨fun d hd same => ?_, rfl⟩
    exact List.find?_eq_none.mp found d hd (beq_iff_eq.mpr same)
  | some d =>
    exact .inr ⟨d, List.mem_of_find?_eq_some found, by simpa using List.find?_some found, rfl⟩

section picked
variable {s p : State} {x : TrainId} {c : Nat}

theorem picks_train (h : s.picks x c p) :
    p.train x = { s.train x with chain := (p.train x).chain } ∧
      (p.train x).chain = (s.train x).chain.filter fun d => d.extent != c := by
  rcases h with ⟨free, rfl⟩ | ⟨d, -, rfl, rfl⟩
  · exact ⟨rfl, (List.filter_eq_self.mpr fun d hd => bne_iff_ne.mpr (free d hd)).symm⟩
  · rw [reclaim_train_self]
    exact ⟨rfl, rfl⟩

theorem picks_serialCounter (h : s.picks x c p) : (p.train x).serialCounter = (s.train x).serialCounter := by
  rw [(picks_train h).1]

theorem picks_frame (h : s.picks x c p) : p.locks = s.locks ∧ p.timebase = s.timebase ∧ p.guards = s.guards ∧
    s.keepsFaults p ∧ s.keepsLinks p ∧ p.freeReads = s.freeReads := by
  rcases h with ⟨-, rfl⟩ | ⟨d, -, -, rfl⟩
  · exact ⟨rfl, rfl, rfl, ⟨rfl, rfl⟩, ⟨rfl, rfl, rfl, rfl, rfl, rfl, rfl⟩, rfl⟩
  · exact (reclaim_frame s x d).2.2

end picked

theorem reserve_none {s : State} {x : TrainId} (h : (s.train x).candidate s.locks = none) : s.reserve x = s := by
  unfold State.reserve
  rw [h]

theorem reserve_some {s : State} {x : TrainId} {c : Nat} (h : (s.train x).candidate s.locks = some c) :
    s.reserve x = (s.pick x c).setTrain x { (s.pick x c).train x with reserved := some c } := by
  unfold State.reserve
  rw [h]

/-! ## START_TRAIN -/

section start
variable {s : State} {x : TrainId}

theorem startTrain_state {b : Byte} (hb : b.toNat = x.val) : startTrain b s =
    match (s.train x).state with
    | .unconfigured => .refuse .noSource
    | .recording => .done s .empty
    | .stalled => .done s .empty
    | .idle =>
      match (s.train x).current with
      | some e =>
        if e.fill < Config.pagesPerExtent then .done (s.resumeTrain x e.fill) .empty
        else .done (s.startFresh x) .empty
      | none => .done (s.startFresh x) .empty := by
  unfold startTrain
  rw [trainOf_eq_some hb] <;> rfl

theorem startTrain_resume {b : Byte} {e : ChainEntry} (hb : b.toNat = x.val) (idle : (s.train x).state = .idle)
    (current : (s.train x).current = some e) (room : e.fill < 64) :
    startTrain b s = .done (s.resumeTrain x e.fill) .empty := by
  rw [startTrain_state hb, idle]
  dsimp only
  rw [current]
  exact if_pos room

theorem startTrain_fresh {b : Byte} (hb : b.toNat = x.val) (idle : (s.train x).state = .idle)
    (full : ∀ e, (s.train x).current = some e → 64 ≤ e.fill) :
    startTrain b s = .done (s.startFresh x) .empty := by
  rw [startTrain_state hb, idle]
  dsimp only
  cases current : (s.train x).current with
  | none => rfl
  | some e => exact if_neg (Nat.not_lt.mpr (full e current))

theorem resumeTrain_eq (fill : Nat) : s.resumeTrain x fill =
    let s1 := s.setTrain x { s.train x with state := .recording, firstFrame := true }
    if 48 ≤ fill then s1.reserve x else s1 := rfl

theorem startFresh_some {c : Nat} (h : (s.train x).candidate s.locks = some c) : s.startFresh x =
    (s.pick x c).setTrain x { (s.pick x c).train x with
      state := .recording, firstFrame := true
      chain := ((s.pick x c).train x).chain ++ [⟨c, (s.train x).serialCounter, 0⟩]
      cursor := some c, reserved := none } := by
  have counter := picks_serialCounter (pick_picks s x c)
  unfold State.startFresh State.makeCurrent
  rw [h]
  dsimp only
  rw [setTrain_train_self, setTrain_setTrain, counter]

theorem startFresh_none (h : (s.train x).candidate s.locks = none) : s.startFresh x =
    ((s.setTrain x { s.train x with state := .stalled, firstFrame := true }).raise (.stalled x)).recordFault
      .trainStalled (some x.val) := by
  unfold State.startFresh State.stall
  rw [h]
  dsimp only
  rw [setTrain_train_self, setTrain_setTrain]

end start

/-- A train field of 16 or more is refused by the four commands that carry one (section 1.3). -/
theorem trainField_refused {tag b kind : Byte} {a : ConfigureTrainArgs} {i : Instr} {u s : State} (high : 16 ≤ b.toNat)
    (same : a.train = b) (row : (i, kind) ∈ [(Instr.configureTrain tag (.fields a), (0x10 : Byte)),
      (.releaseTrain tag (.fields b), 0x11), (.startTrain tag (.fields b), 0x12), (.stopTrain tag (.fields b), 0x13)])
    (ht : u.takes i s) : TurnedAway i kind tag u s .badValue := by
  have none : trainOf b = none := dif_neg (by omega)
  simp only [List.mem_cons, Prod.mk.injEq, List.not_mem_nil, or_false] at row
  obtain ⟨rfl, rfl⟩ | ⟨rfl, rfl⟩ | ⟨rfl, rfl⟩ | ⟨rfl, rfl⟩ := row
  · refine turnedAway_of_refuse (f := configureTrain) rfl ht ?_
    rw [configureTrain, same, none]
  · refine turnedAway_of_refuse (f := releaseTrain) rfl ht ?_
    rw [releaseTrain, none]
  · refine turnedAway_of_refuse (f := startTrain) rfl ht ?_
    rw [startTrain, none]
  · refine turnedAway_of_refuse (f := stopTrain) rfl ht ?_
    rw [stopTrain, none]

/-- Settles O12. (`Machine.startTrain` is the model's block itself, so the theorem of that name stands one name
deeper.) -/
theorem Settled.startTrain : Obligations.StartTrain := by
  refine ⟨fun tag a b kind i u s high same row ht => trainField_refused high same row ht,
    fun tag b x u s hb ht => ⟨fun state => ?_, fun state => ?_, fun e idle current room => ⟨fun stays => ?_, fun c high picks =>
      ⟨_, pick_picks _ x c, ?_⟩⟩, fun c idle full picks => ⟨_, pick_picks s x c, ?_⟩, fun idle full none => ?_⟩⟩
  · refine turnedAway_of_refuse (f := Machine.startTrain) rfl ht ?_
    rw [startTrain_state hb, state]
  · refine accepted_of_done (f := Machine.startTrain) rfl ht ?_
    rw [startTrain_state hb]
    rcases state with h | h <;> rw [h]
  · refine accepted_of_done (f := Machine.startTrain) rfl ht ((startTrain_resume hb idle current room).trans ?_)
    rw [resumeTrain_eq]
    dsimp only
    rcases stays with low | none
    · rw [if_neg (by omega)]
    · have none' : ((s.setTrain x { s.train x with state := .recording, firstFrame := true }).train x).candidate
          s.locks = .none := by
        rw [setTrain_train_self]
        exact none
      rw [reserve_none none', ite_self]
  · refine accepted_of_done (f := Machine.startTrain) rfl ht ((startTrain_resume hb idle current room).trans ?_)
    have picks' : ((s.setTrain x { s.train x with state := .recording, firstFrame := true }).train x).candidate
        s.locks = some c := by
      rw [setTrain_train_self]
      exact picks
    rw [resumeTrain_eq]
    dsimp only
    rw [if_pos high, reserve_some picks']
  · refine accepted_of_done (f := Machine.startTrain) rfl ht ((startTrain_fresh hb idle full).trans ?_)
    rw [startFresh_some picks]
  · refine accepted_of_done (f := Machine.startTrain) rfl ht ((startTrain_fresh hb idle full).trans ?_)
    rw [startFresh_none none]

end Sys2Proof.Machine
end

section
/-! Frame announcements (R12 to R19): FRAME_OPEN, FRAME_DONE, the anchor rule (R36, R37) and the reservation points
(R18, R21, R24, R25). -/

namespace Sys2Proof.Machine

/-! ## FRAME_OPEN -/

section opens
variable {s : State} {x : TrainId} {tag train : Byte} {label : TimecodeField}

theorem answerIngest_eq (s : State) (tag : Byte) (a : IngestAnswer) :
    s.answerIngest tag a = { s with ingest := { s.ingest with waiting := s.ingest.waiting ++ [(tag, a)] } } := rfl

theorem grant_eq {e : ChainEntry} (current : (s.train x).current = some e) : s.grant x tag train label =
    (s.setTrain x { s.train x with
      inFlight := some ⟨e.extent * 64 + e.fill, (s.train x).serialCounter, label⟩ }).answerIngest tag
        (.grant train (e.extent * 64 + e.fill) (s.train x).serialCounter) := by
  unfold State.grant
  dsimp only
  rw [current]
  rfl

theorem frameOpen_state (h : train.toNat = x.val) : State.frameOpen tag train label s =
    match (s.train x).state with
    | .recording =>
      if (s.train x).serialCounter = Config.serialLimit then s.serialLimitDrop x tag train
      else s.openRecording x tag train label
    | .stalled =>
      if (s.train x).serialCounter = Config.serialLimit then s.serialLimitDrop x tag train
      else s.openStalled x tag train label
    | .idle => s.answerIngest tag (.drop train .notRecording)
    | .unconfigured => s.answerIngest tag (.drop train .notRecording) := by
  unfold State.frameOpen
  rw [trainOf_eq_some h] <;> rfl

theorem frameOpen_recording (h : train.toNat = x.val) (state : (s.train x).state = .recording)
    (limit : (s.train x).serialCounter ≠ 4294967295) :
    State.frameOpen tag train label s = s.openRecording x tag train label := by
  have below : ¬(s.train x).serialCounter = Config.serialLimit := limit
  rw [frameOpen_state h, state]
  exact if_neg below

theorem frameOpen_stalled (h : train.toNat = x.val) (state : (s.train x).state = .stalled)
    (limit : (s.train x).serialCounter ≠ 4294967295) :
    State.frameOpen tag train label s = s.openStalled x tag train label := by
  have below : ¬(s.train x).serialCounter = Config.serialLimit := limit
  rw [frameOpen_state h, state]
  exact if_neg below

theorem frameOpen_limit (h : train.toNat = x.val)
    (state : (s.train x).state = .recording ∨ (s.train x).state = .stalled)
    (limit : (s.train x).serialCounter = 4294967295) :
    State.frameOpen tag train label s = s.serialLimitDrop x tag train := by
  have at' : (s.train x).serialCounter = Config.serialLimit := limit
  rw [frameOpen_state h]
  rcases state with state | state <;> rw [state] <;> exact if_pos at'

theorem openRecording_eq {e : ChainEntry} (current : (s.train x).current = some e) :
    let s1 := if (s.train x).inFlight = none then s else s.recordFault .ingestSequence (some train.toNat)
    s.openRecording x tag train label =
      { (s1.setTrain x { s.train x with
          inFlight := some ⟨e.extent * 64 + e.fill, (s.train x).serialCounter, label⟩ }) with
        ingest := { s.ingest with waiting := s.ingest.waiting ++
          [(tag, .grant train (e.extent * 64 + e.fill) (s.train x).serialCounter)] } } := by
  unfold State.openRecording
  cases inFlight : (s.train x).inFlight with
  | none =>
    have granted := grant_eq (tag := tag) (train := train) (label := label) current
    simpa [answerIngest_eq, inFlight] using granted
  | some f =>
    obtain ⟨faults, reports, alarm, recorded⟩ := recordFault_eq s .ingestSequence (some train.toNat)
    have same : (s.recordFault .ingestSequence (some train.toNat)).train x = s.train x := by
      rw [recorded]
      rfl
    have lane : (s.recordFault .ingestSequence (some train.toNat)).ingest = s.ingest := by rw [recorded]
    have granted := grant_eq (s := s.recordFault .ingestSequence (some train.toNat)) (tag := tag) (train := train)
      (label := label) (by rw [same]; exact current)
    rw [same, answerIngest_eq, setTrain_ingest, lane] at granted
    exact granted

/-- Settles O13. -/
theorem frameOpen : Obligations.FrameOpen := by
  intro tag train label s on leaves answered
  refine ⟨fun high => ?_, fun x hx => ⟨fun state => ?_, fun e state limit current => ?_, fun state limit => ?_,
    fun state limit none => ?_⟩⟩
  · refine leaves_powered (f := State.frameOpen tag train label) rfl on ?_
    rw [State.frameOpen, show trainOf train = none from dif_neg (by omega)]
    rfl
  · refine leaves_powered (f := State.frameOpen tag train label) rfl on ?_
    rw [frameOpen_state hx]
    rcases state with h | h <;> rw [h] <;> rfl
  · refine leaves_powered (f := State.frameOpen tag train label) rfl on ?_
    rw [frameOpen_recording hx state limit, openRecording_eq current]
  · exact leaves_powered (f := State.frameOpen tag train label) rfl on (frameOpen_limit hx state limit)
  · refine leaves_powered (f := State.frameOpen tag train label) rfl on ((frameOpen_stalled hx state limit).trans ?_)
    rw [State.openStalled, none]
    rfl

/-! ## Stalls and changes of extent -/

/-- A train's record with extent c made current in RECORDING (R24, R25). -/
def Train.resumedInto (t : Train) (c : Nat) : Train :=
  { t with
    state := .recording, reserved := none, cursor := some c, chain := t.chain ++ [⟨c, t.serialCounter, 0⟩] }

/-- A stall retry that finds a candidate resumes the train and grants the frame (R15, R25). -/
theorem openStalled_some {c : Nat} (h : (s.train x).candidate s.locks = some c) :
    s.openStalled x tag train label =
      (((s.pick x c).setTrain x (((s.pick x c).train x).resumedInto c)).raise (.resumed x c)).grant x tag train
        label := by
  have current : ((s.pick x c).makeCurrent x c).setTrain x { ((s.pick x c).makeCurrent x c).train x with
      state := .recording } = (s.pick x c).setTrain x (((s.pick x c).train x).resumedInto c) := by
    unfold State.makeCurrent
    dsimp only
    rw [setTrain_train_self, setTrain_setTrain]
    rfl
  unfold State.openStalled
  rw [h]
  exact congrArg (fun u : State => (u.raise (.resumed x c)).grant x tag train label) current

/-- The frame granted in an extent just made current has page index 0 (R25). -/
theorem grant_resumed (p : State) (c : Nat) :
    ((p.setTrain x ((p.train x).resumedInto c)).raise (.resumed x c)).grant x tag train label =
      { p with
        trains := p.trains.set x.val { (p.train x).resumedInto c with
          inFlight := some ⟨c * 64, (p.train x).serialCounter, label⟩ }
        ingest := { p.ingest with waiting := p.ingest.waiting ++
          [(tag, .grant train (c * 64) (p.train x).serialCounter)] }
        reports := (p.raise (.resumed x c)).reports } := by
  obtain ⟨r, raised⟩ := raise_eq (p.setTrain x ((p.train x).resumedInto c)) (.resumed x c)
  have reports : (p.raise (.resumed x c)).reports = r := by
    have := raise_reports_congr (s := p) (t := p.setTrain x ((p.train x).resumedInto c)) (.resumed x c) rfl rfl
    rw [← this, raised]
  have train' : (State.train { p.setTrain x ((p.train x).resumedInto c) with reports := r } x) =
      (p.train x).resumedInto c := setTrain_train_self ..
  have current : (State.train { p.setTrain x ((p.train x).resumedInto c) with reports := r } x).current =
      some ⟨c, (p.train x).serialCounter, 0⟩ := by
    rw [train']
    simp [Train.current, Train.resumedInto]
  rw [reports, raised, grant_eq current, train']
  simp only [answerIngest_eq, State.setTrain, Vector.set_set, Nat.add_zero]
  rfl

theorem comparePoints_full {e : ChainEntry} (current : (s.train x).current = some e) (full : e.fill = 64) :
    s.comparePoints x = s.extentChange x := by
  unfold State.comparePoints
  rw [current]
  exact if_pos full

theorem comparePoints_room {e : ChainEntry} (current : (s.train x).current = some e) (room : e.fill < 64) :
    s.comparePoints x = if 48 ≤ e.fill ∧ (s.train x).reserved = none then s.reserve x else s := by
  unfold State.comparePoints
  rw [current]
  exact if_neg (Nat.ne_of_lt room)

theorem extentChange_some {c : Nat} (h : (s.train x).reserved = some c) : s.extentChange x = s.makeCurrent x c := by
  unfold State.extentChange
  rw [h]

theorem extentChange_none (h : (s.train x).reserved = none) : s.extentChange x = s.stall x := by
  unfold State.extentChange
  rw [h]

/-- Settles O14. -/
theorem stallsAndExtentChanges : Obligations.StallsAndExtentChanges := by
  refine ⟨fun tag train label x c s on hx state limit picks => ?_, fun x s e current full => ⟨fun c reserved => ?_,
    fun reserved => ?_⟩⟩
  · have op := frameOpen_stalled (tag := tag) (label := label) hx state limit
    rw [openStalled_some picks, grant_resumed] at op
    have picked := pick_picks s x c
    have counter := picks_serialCounter picked
    have lane : (s.pick x c).ingest = s.ingest := (picks_frame picked).2.2.2.2.1.2.1
    refine ⟨s.pick x c, _, picked, leaves_powered (f := State.frameOpen tag train label) rfl on op, ?_, ?_, rfl, ?_⟩
    · rw [← counter]
      simp [State.train, Train.resumedInto]
    · rw [lane, counter]
    · simp [State.train]
  · rw [comparePoints_full current full, extentChange_some reserved]
    rfl
  · rw [comparePoints_full current full, extentChange_none reserved]
    rfl

end opens

end Sys2Proof.Machine
end

section
/-! FRAME_DONE (R17 to R19): the anchor rule (R36, R37), the frame published and the reservation points (R18, R24). -/

namespace Sys2Proof.Machine

/-! ## The anchor rule -/

/-- The report of the anchor that a full list loses (R37). -/
def AnchorMap.overflow (m : AnchorMap) (x : TrainId) : List ReportBody :=
  match m.anchors with
  | oldest :: second :: rest => if 128 ≤ rest.length + 2 then [.mapFull x oldest.serial second.serial] else []
  | _ => []

section anchor
variable (s : State) (x : TrainId) (serial : Nat) (field : TimecodeField) (first : Bool)

/-- The label expected of the next frame (R36, step 2). -/
def State.expectedLabel : Option Timecode := (s.map x).lastLabel.map (s.timebase.advance (s.train x).multiple)

/-- The frame's label, with whether it was replaced (R34, R36). -/
def State.received : Timecode × Bool := s.timebase.receive (s.train x).multiple field

/-- The frame is anchored: it is a first frame, or its label was replaced or is not the expected one (R36, step 3). -/
def State.anchors : Bool :=
  first || (s.received x field).2 || decide (s.expectedLabel x ≠ some (s.received x field).1)

/-- The report of a discontinuity (R36, step 3). -/
def State.discontinuity : List ReportBody :=
  match first, s.expectedLabel x with
  | false, some ex => [.discontinuity x serial (s.timebase.field (s.received x field).1) (s.timebase.field ex)
      (s.received x field).2]
  | _, _ => []

/-- The anchor list after the frame is anchored: room made first (R37). -/
def State.anchorsWith : List Anchor :=
  (s.map x).anchors.drop ((s.map x).overflow x).length ++
    [⟨serial, (s.received x field).1.tcnum, (s.received x field).1.phase⟩]

theorem mapRoom_eq : s.mapRoom x =
    { s with
      maps := s.maps.set x.val { s.map x with anchors := (s.map x).anchors.drop ((s.map x).overflow x).length }
      reports := (((s.map x).overflow x).foldl State.raise s).reports } := by
  have unchanged : s = { s with maps := s.maps.set x.val (s.map x) } := by simp [State.map]
  unfold State.mapRoom AnchorMap.overflow
  cases found : (s.map x).anchors with
  | nil =>
    simp only [List.length_nil, List.drop_zero, List.foldl_nil, ← found]
    exact unchanged
  | cons oldest tail =>
    cases tail with
    | nil =>
      simp only [List.length_nil, List.drop_zero, List.foldl_nil, ← found]
      exact unchanged
    | cons second rest =>
      dsimp only
      by_cases full : 128 ≤ rest.length + 2
      · have full' : Config.maxAnchors ≤ rest.length + 2 := full
        rw [if_pos full', if_pos full]
        obtain ⟨r, raised⟩ := raise_eq (s.setMap x { s.map x with anchors := second :: rest })
          (.mapFull x oldest.serial second.serial)
        have reports : (s.raise (.mapFull x oldest.serial second.serial)).reports = r := by
          have := raise_reports_congr (s := s) (t := s.setMap x { s.map x with anchors := second :: rest })
            (.mapFull x oldest.serial second.serial) rfl rfl
          rw [← this, raised]
        rw [raised]
        simp only [List.length_singleton, List.drop_one, List.tail_cons, List.foldl_cons, List.foldl_nil, reports]
        rfl
      · have full' : ¬Config.maxAnchors ≤ rest.length + 2 := full
        rw [if_neg full', if_neg full]
        simp only [List.length_nil, List.drop_zero, List.foldl_nil, ← found]
        exact unchanged

/-- What the mapper does with a published frame (R36). -/
theorem mapPublish_eq : s.mapPublish x serial field first =
    { s with
      maps := s.maps.set x.val
        ⟨if s.anchors x field first then s.anchorsWith x serial field else (s.map x).anchors,
          some (s.received x field).1⟩
      reports := ((if s.anchors x field first then (s.map x).overflow x ++ s.discontinuity x serial field first
        else []).foldl State.raise s).reports } := by
  have parts : s.mapPublish x serial field first =
      let s1 := if s.anchors x field first then
        (s.discontinuity x serial field first).foldl State.raise ((s.mapRoom x).addAnchor x
          ⟨serial, (s.received x field).1.tcnum, (s.received x field).1.phase⟩) else s
      s1.setMap x { s1.map x with lastLabel := some (s.received x field).1 } := by
    have raises : (match first, s.expectedLabel x with
        | false, some ex => ((s.mapRoom x).addAnchor x
            ⟨serial, (s.received x field).1.tcnum, (s.received x field).1.phase⟩).raise
              (.discontinuity x serial (s.timebase.field (s.received x field).1) (s.timebase.field ex)
                (s.received x field).2)
        | _, _ => (s.mapRoom x).addAnchor x
            ⟨serial, (s.received x field).1.tcnum, (s.received x field).1.phase⟩) =
        (s.discontinuity x serial field first).foldl State.raise ((s.mapRoom x).addAnchor x
          ⟨serial, (s.received x field).1.tcnum, (s.received x field).1.phase⟩) := by
      unfold State.discontinuity
      cases first <;> cases s.expectedLabel x <;> rfl
    dsimp only
    rw [← raises]
    rfl
  rw [parts]
  by_cases anchored : s.anchors x field first = true
  · simp only [if_pos anchored]
    have added : (s.mapRoom x).addAnchor x ⟨serial, (s.received x field).1.tcnum, (s.received x field).1.phase⟩ =
        { s with
          maps := s.maps.set x.val { s.map x with anchors := s.anchorsWith x serial field }
          reports := (((s.map x).overflow x).foldl State.raise s).reports } := by
      rw [mapRoom_eq]
      simp [State.addAnchor, State.setMap, State.map, State.anchorsWith]
    have reports := raises_reports_congr (s := ((s.map x).overflow x).foldl State.raise s) (t := { s with
      maps := s.maps.set x.val { s.map x with anchors := s.anchorsWith x serial field }
      reports := (((s.map x).overflow x).foldl State.raise s).reports }) (s.discontinuity x serial field first) rfl
        (raises_time s _).symm
    rw [added, raises_eq, reports, List.foldl_append]
    simp [State.setMap, State.map]
  · simp only [if_neg anchored]
    rfl

end anchor

/-! ## A frame published -/

section publish
variable {s : State} {x : TrainId} {tag train : Byte} {page : Word} {good : Bool}

theorem raiseFill_append (pre : List ChainEntry) (e : ChainEntry) :
    raiseFill (pre ++ [e]) = pre ++ [{ e with fill := e.fill + 1 }] := by
  induction pre with
  | nil => rfl
  | cons a rest ih =>
    cases rest with
    | nil => rfl
    | cons b more => exact congrArg (a :: ·) ih

/-- A train's record after a frame is published (R18). -/
def Train.published (t : Train) : Train :=
  { t with
    chain := raiseFill t.chain, serialCounter := t.serialCounter + 1, inFlight := none, firstFrame := false }

/-- A frame published, up to the reservation points (R18, R36). -/
def State.publishes (s : State) (x : TrainId) (f : InFlight) : State :=
  { s with
    trains := s.trains.set x.val (s.train x).published
    maps := s.maps.set x.val
      ⟨if s.anchors x f.label (s.train x).firstFrame then s.anchorsWith x f.serial f.label else (s.map x).anchors,
        some (s.received x f.label).1⟩
    reports := ((if s.anchors x f.label (s.train x).firstFrame then
      (s.map x).overflow x ++ s.discontinuity x f.serial f.label (s.train x).firstFrame else []).foldl State.raise
        s).reports }

theorem publish_eq (s : State) (x : TrainId) (f : InFlight) : s.publish x f = (s.publishes x f).comparePoints x := by
  have step : (let t := s.train x
      let s1 := s.setTrain x { t with
        chain := raiseFill t.chain, serialCounter := t.serialCounter + 1, inFlight := none }
      let s2 := s1.mapPublish x f.serial f.label t.firstFrame
      s2.setTrain x { s2.train x with firstFrame := false }) = s.publishes x f := by
    dsimp only
    rw [mapPublish_eq]
    have train' : (s.setTrain x { s.train x with
        chain := raiseFill (s.train x).chain, serialCounter := (s.train x).serialCounter + 1
        inFlight := none }).train x = { s.train x with
        chain := raiseFill (s.train x).chain, serialCounter := (s.train x).serialCounter + 1, inFlight := none } :=
      setTrain_train_self ..
    have received : (s.setTrain x { s.train x with
        chain := raiseFill (s.train x).chain, serialCounter := (s.train x).serialCounter + 1
        inFlight := none }).received x f.label = s.received x f.label := by
      unfold State.received
      rw [train']
      rfl
    have expected : (s.setTrain x { s.train x with
        chain := raiseFill (s.train x).chain, serialCounter := (s.train x).serialCounter + 1
        inFlight := none }).expectedLabel x = s.expectedLabel x := by
      unfold State.expectedLabel
      rw [train']
      rfl
    simp only [State.anchors, State.discontinuity, State.anchorsWith, received, expected]
    rw [raises_reports_congr (s := s) (t := s.setTrain x { s.train x with
        chain := raiseFill (s.train x).chain, serialCounter := (s.train x).serialCounter + 1
        inFlight := none }) _ rfl rfl]
    simp [State.publishes, State.setTrain, State.train, State.map, Train.published, State.anchors, State.discontinuity,
      State.anchorsWith]
  rw [← step]
  rfl

theorem frameDone_inFlight {f : InFlight} (hx : train.toNat = x.val) (flight : (s.train x).inFlight = some f)
    (same : f.page = page.toNat) : State.frameDone tag train page good s =
      if good then (s.answerIngest tag (.ack train page)).publish x f
      else (s.answerIngest tag (.ack train page)).setTrain x { s.train x with inFlight := none } := by
  unfold State.frameDone
  rw [trainOf_eq_some hx]
  dsimp only
  rw [flight]
  exact if_pos same

theorem frameDone_stale (none : ∀ x : TrainId, train.toNat = x.val → ∀ f, (s.train x).inFlight = some f →
    f.page ≠ page.toNat) : State.frameDone tag train page good s = s.staleDone tag train page := by
  unfold State.frameDone
  by_cases named : train.toNat < 16
  · rw [show trainOf train = some ⟨train.toNat, named⟩ from dif_pos named]
    dsimp only
    cases flight : (s.train ⟨train.toNat, named⟩).inFlight with
    | none => rfl
    | some f => exact if_neg (none ⟨train.toNat, named⟩ rfl f flight)
  · rw [show trainOf train = .none from dif_neg named]

end publish

/-- Settles O15. (`Machine.State.frameDone` is the model's own.) -/
theorem frameDone : Obligations.FrameDone := by
  refine ⟨?_, fun tag train page x f s on hx flight same => ?_, fun tag train page good s on none => ?_⟩
  · intro tag train page x f pre e s on hx flight same chain room r m tc removed anchored
    have op := frameDone_inFlight (tag := tag) (good := true) hx flight same
    rw [if_pos rfl, publish_eq] at op
    generalize hu : (s.answerIngest tag (.ack train page)).publishes x f = u at op
    have train' : u.train x = { r with
        chain := pre ++ [{ e with fill := e.fill + 1 }], serialCounter := r.serialCounter + 1, inFlight := .none
        firstFrame := false } := by
      rw [← raiseFill_append, ← chain, ← hu]
      simp [State.publishes, State.train, Train.published, answerIngest_eq, r]
    have map' : u.map x = ⟨if s.anchors x f.label r.firstFrame then s.anchorsWith x f.serial f.label else m.anchors,
        some tc.1⟩ := by
      rw [← hu]
      simp only [State.publishes, State.map, Vector.getElem_set_self]
      rfl
    have reports' : u.reports = ((if s.anchors x f.label r.firstFrame then
        m.overflow x ++ s.discontinuity x f.serial f.label r.firstFrame else []).foldl State.raise s).reports := by
      rw [← hu]
      exact raises_reports_congr _ rfl rfl
    have locks : u.locks = s.locks := by rw [← hu]; rfl
    have current : (u.train x).current = some { e with fill := e.fill + 1 } := by
      rw [train']
      simp [Train.current]
    have reserved : (u.train x).reserved = r.reserved := by rw [train']
    have expected : s.expectedLabel x = m.lastLabel.map (s.timebase.advance r.multiple) := rfl
    -- an anchored frame, with its reports
    have anchors : ∀ bodies, s.anchors x f.label r.firstFrame = true →
        s.discontinuity x f.serial f.label r.firstFrame = bodies → anchored u bodies := by
      intro bodies yes reported
      rw [if_pos yes] at map' reports'
      exact ⟨congrArg AnchorMap.anchors map', reported ▸ reports'⟩
    refine ⟨u, _, leaves_powered (f := State.frameDone tag train page true) rfl on op, train', ?_, ?_, ?_, fun first => ?_,
      fun l notFirst last => ?_, ?_⟩
    · rw [← hu]
      rfl
    · rw [map']
    · rw [← hu]
      simp [State.publishes, State.train, State.map, answerIngest_eq, r, m]
    · refine anchors [] ?_ ?_
      · rcases first with h | h
        · simp [State.anchors, h]
        · simp [State.anchors, expected, h]
      · unfold State.discontinuity
        rcases first with h | h
        · rw [h]
        · rw [expected, h]
          cases r.firstFrame <;> rfl
    · have ex : s.expectedLabel x = some (s.timebase.advance r.multiple l) := by rw [expected, last]; rfl
      have anchors_iff : s.anchors x f.label r.firstFrame = true ↔ tc.1 ≠ s.timebase.advance r.multiple l ∨ tc.2 = true := by
        rw [State.anchors, ex, notFirst, show s.received x f.label = tc from rfl]
        simp only [Bool.false_or, Bool.or_eq_true, decide_eq_true_eq, ne_eq, Option.some.injEq]
        rw [or_comm, eq_comm]
      refine ⟨fun same' kept => ?_, fun differs => anchors [.discontinuity x f.serial (s.timebase.field tc.1)
        (s.timebase.field (s.timebase.advance r.multiple l)) tc.2] (anchors_iff.mpr differs) ?_⟩
      · have no : ¬s.anchors x f.label r.firstFrame = true := by
          rw [anchors_iff]
          rintro (h | h)
          · exact h same'
          · rw [kept] at h
            cases h
        rw [if_neg no] at map' reports'
        exact ⟨by rw [map'], reports'⟩
      · unfold State.discontinuity
        rw [notFirst, ex]
        rfl
    · refine ⟨fun stays => ?_, fun high low free => ⟨fun noPick => ?_, fun c picks => ⟨u.pick x c, pick_picks u x c, ?_⟩⟩,
        fun full => ⟨fun c held => ?_, fun free => ?_⟩⟩
      · have low : e.fill + 1 < 64 := by rcases stays with h | h <;> omega
        rw [comparePoints_room current low, if_neg]
        rintro ⟨high, free⟩
        rw [reserved] at free
        change 48 ≤ e.fill + 1 at high
        rcases stays with h | h
        · omega
        · exact h.2 free
      · rw [comparePoints_room current low, if_pos ⟨high, reserved.trans free⟩, reserve_none (locks ▸ noPick)]
      · rw [comparePoints_room current low, if_pos ⟨high, reserved.trans free⟩, reserve_some (locks ▸ picks)]
      · rw [comparePoints_full current full, extentChange_some (reserved.trans held), State.makeCurrent]
        have counter : (u.train x).serialCounter = r.serialCounter + 1 := by rw [train']
        dsimp only
        rw [counter]
      · rw [comparePoints_full current full, extentChange_none (reserved.trans free), State.stall]
  · refine leaves_powered (f := State.frameDone tag train page false) rfl on
      ((frameDone_inFlight (good := false) hx flight same).trans ?_)
    rfl
  · exact leaves_powered (f := State.frameDone tag train page good) rfl on (frameDone_stale none)

end Sys2Proof.Machine
end

section
/-! The house timebase (R28 to R34): TIMEBASE and QUERY_ANCHORS, labels and timecode numbers, and the replacement of
labels. -/

namespace Sys2Proof.Machine

/-! ## TIMEBASE and QUERY_ANCHORS -/

theorem valid_iff {tb : Timebase} : tb.valid = true ↔
    tb.rate ∈ [24, 25, 30, 48, 50, 60] ∧ (tb.drop = true → tb.rate = 30 ∨ tb.rate = 60) := by
  unfold Timebase.valid
  cases tb.drop <;> simp

/-- Settles O19. -/
theorem timebaseAndAnchors : Obligations.TimebaseAndAnchors := by
  refine ⟨fun tag a u s ht => ?_, fun tag a u s ht => ⟨fun bad => ?_, fun x hx low => ?_⟩⟩
  · intro good
    have good_iff : (⟨a.rate.toNat, a.drop⟩ : Timebase).valid = true ↔ good := valid_iff
    have configured_iff : (allTrains.any fun x => decide ((s.train x).state ≠ .unconfigured)) = true ↔
        ∃ x, (s.train x).state ≠ .unconfigured :=
      List.any_eq_true.trans ⟨fun ⟨x, _, h⟩ => ⟨x, of_decide_eq_true h⟩, fun ⟨x, h⟩ =>
        ⟨x, mem_allTrains x, decide_eq_true h⟩⟩
    have checks : timebase a s = if (!(⟨a.rate.toNat, a.drop⟩ : Timebase).valid) = true then .refuse .badValue
        else if (allTrains.any fun x => decide ((s.train x).state ≠ .unconfigured)) = true then .refuse .busy
        else .done { s with
          timebase := ⟨a.rate.toNat, a.drop⟩
          channels := mapRecords (fun ch => { ch with markIn := none, markOut := none }) s.channels } .empty := rfl
    refine ⟨fun bad => ?_, fun ok configured => ?_, fun ok none => ?_⟩
    · refine turnedAway_of_refuse (f := timebase) rfl ht ?_
      rw [checks, if_pos]
      rw [Bool.not_eq_true', ← Bool.not_eq_true]
      exact mt good_iff.mp bad
    · refine turnedAway_of_refuse (f := timebase) rfl ht ?_
      rw [checks, good_iff.mpr ok, if_neg (by simp), if_pos (configured_iff.mpr configured)]
    · have free : ¬(allTrains.any fun x => decide ((s.train x).state ≠ .unconfigured)) = true := by
        rw [configured_iff]
        exact fun ⟨x, hx⟩ => hx (none x)
      rw [good_iff.mpr ok, if_neg (by simp), if_neg free] at checks
      exact ⟨_, accepted_of_done (f := timebase) rfl ht checks, rfl, fun c => by simp [State.channel], rfl⟩
  · refine turnedAway_of_refuse (f := queryAnchors) rfl ht ?_
    unfold queryAnchors
    by_cases named : a.train.toNat < 16
    · rw [show trainOf a.train = some ⟨a.train.toNat, named⟩ from dif_pos named]
      exact if_pos (by omega)
    · rw [show trainOf a.train = none from dif_neg named]
  · refine accepted_of_done (f := queryAnchors) rfl ht ?_
    unfold queryAnchors
    rw [trainOf_eq_some hx]
    exact if_neg (Nat.not_lt.mpr low)

/-! ## Minutes and the frames within one -/

/-- The label of minute m of the day and place o within it. -/
def minuteLabel (rate m o : Nat) : Label := ⟨m / 60, m % 60, o / rate, o % rate⟩

/-- The number of minute m of the day and place o within it, d numbers short in each minute but every tenth (R31). -/
def minuteNumber (rate d m o : Nat) : Nat := m * (60 * rate) + o - d * (m - m / 10)

section minutes
variable {rate m o : Nat}

theorem splitNumber_minute (pos : 0 < rate) (within : o < 60 * rate) :
    splitNumber rate (m * (60 * rate) + o) = minuteLabel rate m o := by
  have minutes : (m * (60 * rate) + o) / (60 * rate) = m := by
    rw [Nat.mul_comm, Nat.mul_add_div (by omega), Nat.div_eq_of_lt within, Nat.add_zero]
  have seconds : (m * (60 * rate) + o) / rate = 60 * m + o / rate := by
    rw [show m * (60 * rate) + o = rate * (60 * m) + o by ring, Nat.mul_add_div pos]
  have frames : (m * (60 * rate) + o) % rate = o % rate := by
    rw [show m * (60 * rate) + o = o + rate * (60 * m) by ring, Nat.add_mul_mod_self_left]
  have hours : (m * (60 * rate) + o) / (3600 * rate) = m / 60 := by
    rw [show 3600 * rate = 60 * rate * 60 by ring, ← Nat.div_div_eq_div_mul, minutes]
  have low : o / rate < 60 := Nat.div_lt_of_lt_mul (by rw [Nat.mul_comm]; exact within)
  unfold splitNumber minuteLabel
  rw [hours, minutes, seconds, frames]
  congr 1
  rw [Nat.mul_add_mod, Nat.mod_eq_of_lt low]

/-- Every label whose fields are in range is the label of its minute and place. -/
theorem minuteLabel_of_label {l : Label} (mm : l.mm ≤ 59) (ff : l.ff < rate) :
    minuteLabel rate (60 * l.hh + l.mm) (l.ss * rate + l.ff) = l := by
  have pos : 0 < rate := by omega
  have seconds : (l.ss * rate + l.ff) / rate = l.ss := by
    rw [Nat.mul_comm, Nat.mul_add_div pos, Nat.div_eq_of_lt ff, Nat.add_zero]
  have frames : (l.ss * rate + l.ff) % rate = l.ff := by
    rw [Nat.mul_comm, Nat.mul_add_mod, Nat.mod_eq_of_lt ff]
  unfold minuteLabel
  rw [seconds, frames, show (60 * l.hh + l.mm) / 60 = l.hh by omega, show (60 * l.hh + l.mm) % 60 = l.mm by omega]

theorem number_minuteLabel (tb : Timebase) (m o : Nat) :
    tb.number (minuteLabel tb.rate m o) = minuteNumber tb.rate tb.dropSkip m o := by
  have minutes : 60 * (m / 60) + m % 60 = m := Nat.div_add_mod ..
  have place : o / tb.rate * tb.rate + o % tb.rate = o := Nat.div_add_mod' ..
  unfold Timebase.number minuteLabel minuteNumber
  dsimp only
  rw [minutes, show 3600 * (m / 60) + 60 * (m % 60) + o / tb.rate = 60 * m + o / tb.rate by omega]
  congr 1
  calc (60 * m + o / tb.rate) * tb.rate + o % tb.rate
      = m * (60 * tb.rate) + (o / tb.rate * tb.rate + o % tb.rate) := by ring
    _ = m * (60 * tb.rate) + o := by rw [place]

/-- The first places of a minute are the first frames of its first second. -/
theorem first_second {d : Nat} (pos : 0 < rate) (short : d ≤ rate) : o / rate = 0 ∧ o % rate < d ↔ o < d := by
  rw [Nat.div_eq_zero_iff]
  constructor
  · rintro ⟨h | h, low⟩
    · omega
    · rwa [Nat.mod_eq_of_lt h] at low
  · intro low
    have below : o < rate := by omega
    exact ⟨.inr below, by rwa [Nat.mod_eq_of_lt below]⟩

end minutes

/-! ## Labels and numbers -/

/-- Minute m of the day and place o within it name a label that is not dropped (R30). -/
def Timebase.names (tb : Timebase) (m o : Nat) : Prop :=
  m < 1440 ∧ o < 60 * tb.rate ∧ (o < tb.dropSkip → m % 10 = 0)

section labels
variable {tb : Timebase}

theorem rate_pos (h : tb.valid = true) : 0 < tb.rate := by
  obtain ⟨rates, -⟩ := valid_iff.mp h
  simp only [List.mem_cons, List.not_mem_nil, or_false] at rates
  omega

theorem dropSkip_lt (h : tb.valid = true) : tb.dropSkip < tb.rate := by
  obtain ⟨rates, drops⟩ := valid_iff.mp h
  simp only [List.mem_cons, List.not_mem_nil, or_false] at rates
  unfold Timebase.dropSkip
  split
  · split <;> omega
  · omega

theorem dropSkip_plain (plain : tb.drop = false) : tb.dropSkip = 0 := by
  simp [Timebase.dropSkip, plain]

/-- The label of a minute and place is valid exactly when they name one. -/
theorem labelValid_minuteLabel (h : tb.valid = true) {m o : Nat} (day : m < 1440) (within : o < 60 * tb.rate) :
    tb.labelValid (minuteLabel tb.rate m o) = true ↔ tb.names m o := by
  have pos := rate_pos h
  have seconds : o / tb.rate < 60 := Nat.div_lt_of_lt_mul (by rw [Nat.mul_comm]; exact within)
  have frames := Nat.mod_lt o pos
  have first := first_second (o := o) pos (dropSkip_lt h).le
  have tenth : m % 60 % 10 = m % 10 := by omega
  have ranges : m / 60 ≤ 23 ∧ m % 60 ≤ 59 ∧ o / tb.rate ≤ 59 ∧ o % tb.rate < tb.rate := by omega
  have dropped : tb.dropped (minuteLabel tb.rate m o) = true ↔ tb.drop = true ∧ o < tb.dropSkip ∧ m % 10 ≠ 0 := by
    simp only [Timebase.dropped, minuteLabel, Bool.and_eq_true, decide_eq_true_eq, tenth, ← first, and_assoc]
  rw [Timebase.labelValid, Bool.and_eq_true, Bool.not_eq_true', ← Bool.not_eq_true, dropped, decide_eq_true_eq]
  unfold Timebase.names
  refine (and_iff_right ranges).trans ?_
  cases drop : tb.drop with
  | false => simp [dropSkip_plain drop, day, within]
  | true =>
    simp only [true_and, day, within]
    exact ⟨fun no low => by_contra fun ten => no ⟨low, ten⟩, fun all ⟨low, ten⟩ => ten (all low)⟩

/-- Every label in range is that of a minute and place. -/
theorem exists_minuteLabel {l : Label} (h : tb.labelValid l = true) :
    ∃ m o, m < 1440 ∧ o < 60 * tb.rate ∧ minuteLabel tb.rate m o = l := by
  rw [Timebase.labelValid, Bool.and_eq_true, decide_eq_true_eq] at h
  obtain ⟨⟨hh, mm, ss, ff⟩, -⟩ := h
  refine ⟨60 * l.hh + l.mm, l.ss * tb.rate + l.ff, by omega, ?_, minuteLabel_of_label mm ff⟩
  have := Nat.mul_le_mul_right tb.rate ss
  omega

/-- What a number is raised by for the labels dropped before it (R32). -/
def Timebase.raisedNumber (tb : Timebase) (n : Nat) : Nat :=
  let d := tb.dropSkip
  let q := 600 * tb.rate - 9 * d
  n + 9 * d * (n / q) + if n % q < 60 * tb.rate then 0 else d * ((n % q - 60 * tb.rate) / (60 * tb.rate - d) + 1)

theorem label_eq (n : Nat) : tb.label n = splitNumber tb.rate (if tb.drop then tb.raisedNumber n else n) := by
  unfold Timebase.label Timebase.raisedNumber
  split <;> rfl

/-- The two timebases that drop labels (R28, R29). -/
theorem drop_rates (h : tb.valid = true) (drop : tb.drop = true) :
    (tb.rate = 30 ∧ tb.dropSkip = 2) ∨ (tb.rate = 60 ∧ tb.dropSkip = 4) := by
  rcases (valid_iff.mp h).2 drop with rate | rate
  · exact .inl ⟨rate, by simp [Timebase.dropSkip, drop, rate]⟩
  · exact .inr ⟨rate, by simp [Timebase.dropSkip, drop, rate]⟩

/-- The number of a minute and place that name a label lies below D, and raising it gives the place under non-drop
counting. -/
theorem minuteNumber_names (h : tb.valid = true) {m o : Nat} (names : tb.names m o) :
    minuteNumber tb.rate tb.dropSkip m o < tb.day ∧
      (if tb.drop then tb.raisedNumber (minuteNumber tb.rate tb.dropSkip m o)
        else minuteNumber tb.rate tb.dropSkip m o) = m * (60 * tb.rate) + o := by
  obtain ⟨day, within, tenth⟩ := names
  unfold Timebase.raisedNumber Timebase.day minuteNumber
  cases drop : tb.drop with
  | false =>
    have skip := dropSkip_plain drop
    have bound : m * (60 * tb.rate) ≤ 1439 * (60 * tb.rate) := Nat.mul_le_mul_right _ (by omega)
    rw [skip]
    simp only [Nat.zero_mul, Nat.sub_zero, if_false, Bool.false_eq_true, and_true]
    omega
  | true =>
    rcases drop_rates h drop with ⟨rate, skip⟩ | ⟨rate, skip⟩
    · simp only [rate, skip] at within tenth ⊢
      refine ⟨by omega, ?_⟩
      have split : m * (60 * 30) + o - 2 * (m - m / 10) = 17982 * (m / 10) + (1798 * (m % 10) + o) := by omega
      have tens : (17982 * (m / 10) + (1798 * (m % 10) + o)) / 17982 = m / 10 := by omega
      have rest : (17982 * (m / 10) + (1798 * (m % 10) + o)) % 17982 = 1798 * (m % 10) + o := by omega
      simp only [if_true, split, tens, rest]
      split <;> omega
    · simp only [rate, skip] at within tenth ⊢
      refine ⟨by omega, ?_⟩
      have split : m * (60 * 60) + o - 4 * (m - m / 10) = 35964 * (m / 10) + (3596 * (m % 10) + o) := by omega
      have tens : (35964 * (m / 10) + (3596 * (m % 10) + o)) / 35964 = m / 10 := by omega
      have rest : (35964 * (m / 10) + (3596 * (m % 10) + o)) % 35964 = 3596 * (m % 10) + o := by omega
      simp only [if_true, split, tens, rest]
      split <;> omega

/-- Every number below D is that of a minute and place that name a label. -/
theorem exists_names (h : tb.valid = true) {n : Nat} (below : n < tb.day) :
    ∃ m o, tb.names m o ∧ minuteNumber tb.rate tb.dropSkip m o = n := by
  unfold Timebase.day at below
  unfold Timebase.names minuteNumber
  cases drop : tb.drop with
  | false =>
    have skip := dropSkip_plain drop
    have pos := rate_pos h
    rw [skip] at below ⊢
    refine ⟨n / (60 * tb.rate), n % (60 * tb.rate), ⟨?_, Nat.mod_lt _ (by omega), fun low => absurd low (by omega)⟩, ?_⟩
    · exact Nat.div_lt_of_lt_mul (by omega)
    · rw [Nat.zero_mul, Nat.sub_zero, Nat.div_add_mod']
  | true =>
    -- t tens of minutes, and within them the first minute whole or a later one without its dropped labels
    rcases drop_rates h drop with ⟨rate, skip⟩ | ⟨rate, skip⟩
    · rw [rate, skip] at below ⊢
      by_cases first : n % 17982 < 1800
      · exact ⟨10 * (n / 17982), n % 17982, by omega, by omega⟩
      · exact ⟨10 * (n / 17982) + (n % 17982 - 1800) / 1798 + 1, (n % 17982 - 1800) % 1798 + 2, by omega, by omega⟩
    · rw [rate, skip] at below ⊢
      by_cases first : n % 35964 < 3600
      · exact ⟨10 * (n / 35964), n % 35964, by omega, by omega⟩
      · exact ⟨10 * (n / 35964) + (n % 35964 - 3600) / 3596 + 1, (n % 35964 - 3600) % 3596 + 4, by omega, by omega⟩

/-- The label of the number of a minute and place that name one. -/
theorem label_minuteNumber (h : tb.valid = true) {m o : Nat} (names : tb.names m o) :
    tb.label (minuteNumber tb.rate tb.dropSkip m o) = minuteLabel tb.rate m o := by
  rw [label_eq, (minuteNumber_names h names).2, splitNumber_minute (rate_pos h) names.2.1]

theorem label_number (h : tb.valid = true) {n : Nat} (below : n < tb.day) :
    tb.labelValid (tb.label n) = true ∧ tb.number (tb.label n) = n := by
  obtain ⟨m, o, names, rfl⟩ := exists_names h below
  rw [label_minuteNumber h names]
  exact ⟨(labelValid_minuteLabel h names.1 names.2.1).mpr names, number_minuteLabel tb m o⟩

theorem number_label (h : tb.valid = true) {l : Label} (valid : tb.labelValid l = true) :
    tb.number l < tb.day ∧ tb.label (tb.number l) = l := by
  obtain ⟨m, o, day, within, rfl⟩ := exists_minuteLabel valid
  have names := (labelValid_minuteLabel h day within).mp valid
  rw [number_minuteLabel tb]
  exact ⟨(minuteNumber_names h names).1, label_minuteNumber h names⟩

end labels

end Sys2Proof.Machine
end

section
/-! The replacement of labels that arrive on the ingest link (R34). -/

namespace Sys2Proof.Machine

/-! ## The rows of the table -/

section repair
variable {tb : Timebase} {l : Label}

/-- The last row but one: a dropped label moves past its second's dropped labels. -/
def Timebase.undropped (tb : Timebase) (l : Label) : Label := if tb.dropped l then { l with ff := tb.dropSkip } else l

/-- The row of the hour. -/
def Timebase.repairHour (tb : Timebase) (l : Label) : Label :=
  tb.undropped (if 24 ≤ l.hh then ⟨0, 0, 0, 0⟩ else l)

/-- The rows from the minute on. -/
def Timebase.repairMinute (tb : Timebase) (l : Label) : Label :=
  tb.repairHour (if 60 ≤ l.mm then nextHour l else l)

/-- The rows from the second on. -/
def Timebase.repairSecond (tb : Timebase) (l : Label) : Label :=
  tb.repairMinute (if 60 ≤ l.ss then nextMinute l else l)

theorem repair_eq (tb : Timebase) (l : Label) :
    tb.repair l = tb.repairSecond (if tb.rate ≤ l.ff then nextSecond l else l) := rfl

theorem nextMinute_fields (l : Label) : (nextMinute l).ss = 0 ∧ (nextMinute l).ff = 0 := by
  unfold nextMinute
  split <;> exact ⟨rfl, rfl⟩

theorem nextSecond_ff (l : Label) : (nextSecond l).ff = 0 := by
  unfold nextSecond
  split
  · exact (nextMinute_fields l).2
  · rfl

theorem repair_of_ff (ff : l.ff < tb.rate) : tb.repair l = tb.repairSecond l := by
  rw [repair_eq, if_neg (Nat.not_le.mpr ff)]

theorem repairSecond_of_ss (ss : l.ss < 60) : tb.repairSecond l = tb.repairMinute l := by
  rw [Timebase.repairSecond, if_neg (Nat.not_le.mpr ss)]

theorem repairMinute_of_mm (mm : l.mm < 60) : tb.repairMinute l = tb.repairHour l := by
  rw [Timebase.repairMinute, if_neg (Nat.not_le.mpr mm)]

theorem repairHour_of_hh (hh : l.hh < 24) : tb.repairHour l = tb.undropped l := by
  rw [Timebase.repairHour, if_neg (Nat.not_le.mpr hh)]

theorem repair_in_range (ff : l.ff < tb.rate) (ss : l.ss < 60) (mm : l.mm < 60) (hh : l.hh < 24) :
    tb.repair l = tb.undropped l := by
  rw [repair_of_ff ff, repairSecond_of_ss ss, repairMinute_of_mm mm, repairHour_of_hh hh]

theorem repair_high_ff (pos : 0 < tb.rate) (ff : tb.rate ≤ l.ff) : tb.repair l = tb.repair (nextSecond l) := by
  rw [repair_eq, if_pos ff, repair_of_ff (by rw [nextSecond_ff]; exact pos)]

theorem repair_high_ss (pos : 0 < tb.rate) (ff : l.ff < tb.rate) (ss : 60 ≤ l.ss) :
    tb.repair l = tb.repair (nextMinute l) := by
  obtain ⟨second, frame⟩ := nextMinute_fields l
  rw [repair_of_ff ff, Timebase.repairSecond, if_pos ss, repair_of_ff (by rw [frame]; exact pos),
    repairSecond_of_ss (by rw [second]; decide)]

theorem repair_high_mm (pos : 0 < tb.rate) (ff : l.ff < tb.rate) (ss : l.ss < 60) (mm : 60 ≤ l.mm) :
    tb.repair l = tb.repair (nextHour l) := by
  rw [repair_of_ff ff, repairSecond_of_ss ss, Timebase.repairMinute, if_pos mm,
    repair_of_ff (l := nextHour l) pos, repairSecond_of_ss (l := nextHour l) (Nat.succ_pos 59),
    repairMinute_of_mm (l := nextHour l) (Nat.succ_pos 59)]

theorem undropped_zero : tb.undropped ⟨0, 0, 0, 0⟩ = ⟨0, 0, 0, 0⟩ := by
  simp [Timebase.undropped, Timebase.dropped]

theorem repair_high_hh (ff : l.ff < tb.rate) (ss : l.ss < 60) (mm : l.mm < 60) (hh : 24 ≤ l.hh) :
    tb.repair l = ⟨0, 0, 0, 0⟩ := by
  rw [repair_of_ff ff, repairSecond_of_ss ss, repairMinute_of_mm mm, Timebase.repairHour, if_pos hh, undropped_zero]

theorem undropped_valid (h : tb.valid = true) (ff : l.ff < tb.rate) (ss : l.ss < 60) (mm : l.mm < 60)
    (hh : l.hh < 24) : tb.labelValid (tb.undropped l) = true := by
  have skip := dropSkip_lt h
  unfold Timebase.labelValid Timebase.undropped
  cases dropped : tb.dropped l with
  | false =>
    simp only [Bool.false_eq_true, if_false, dropped, Bool.not_false, Bool.and_true, decide_eq_true_eq]
    omega
  | true =>
    have kept : tb.dropped { l with ff := tb.dropSkip } = false := by simp [Timebase.dropped]
    simp only [if_true, kept, Bool.not_false, Bool.and_true, decide_eq_true_eq]
    omega

/-- Whatever label arrives, the one that is kept is valid. -/
theorem repair_valid (h : tb.valid = true) (l : Label) : tb.labelValid (tb.repair l) = true := by
  have pos := rate_pos h
  -- with ff, ss and mm in range
  have hours : ∀ l : Label, l.ff < tb.rate → l.ss < 60 → l.mm < 60 → tb.labelValid (tb.repair l) = true := by
    intro l ff ss mm
    by_cases hh : l.hh < 24
    · rw [repair_in_range ff ss mm hh]
      exact undropped_valid h ff ss mm hh
    · rw [repair_high_hh ff ss mm (by omega), ← undropped_zero (tb := tb)]
      exact undropped_valid h pos (by decide) (by decide) (by decide)
  -- with ff and ss in range
  have minutes : ∀ l : Label, l.ff < tb.rate → l.ss < 60 → tb.labelValid (tb.repair l) = true := by
    intro l ff ss
    by_cases mm : l.mm < 60
    · exact hours l ff ss mm
    · rw [repair_high_mm pos ff ss (by omega)]
      exact hours (nextHour l) pos (Nat.succ_pos 59) (Nat.succ_pos 59)
  -- with ff in range
  have seconds : ∀ l : Label, l.ff < tb.rate → tb.labelValid (tb.repair l) = true := by
    intro l ff
    by_cases ss : l.ss < 60
    · exact minutes l ff ss
    · rw [repair_high_ss pos ff (by omega)]
      exact minutes _ (by rw [(nextMinute_fields l).2]; exact pos) (by rw [(nextMinute_fields l).1]; decide)
  by_cases ff : l.ff < tb.rate
  · exact seconds l ff
  · rw [repair_high_ff pos (by omega)]
    exact seconds _ (by rw [nextSecond_ff]; exact pos)

theorem repair_of_valid (valid : tb.labelValid l = true) : tb.repair l = l := by
  rw [Timebase.labelValid, Bool.and_eq_true, decide_eq_true_eq, Bool.not_eq_true'] at valid
  obtain ⟨⟨hh, mm, ss, ff⟩, kept⟩ := valid
  rw [repair_in_range ff (by omega) (by omega) (by omega), Timebase.undropped, kept]
  rfl

end repair

/-- Settles O20. -/
theorem labelsAndNumbersAgree : Obligations.LabelsAndNumbersAgree := by
  refine ⟨fun tb h => ⟨fun n => label_number h, fun l => number_label h⟩, ?_, ?_⟩
  · intro tb l h d hour minute second
    have pos := rate_pos h
    have dropped : tb.dropped l = true ↔ l.ss = 0 ∧ l.ff < d ∧ l.mm % 10 ≠ 0 := by
      rw [Timebase.dropped, Bool.and_eq_true, decide_eq_true_eq]
      refine and_iff_right_of_imp fun ⟨_, low, _⟩ => ?_
      cases drop : tb.drop with
      | true => rfl
      | false => simp [Timebase.dropSkip, drop] at low
    refine ⟨fun ff => repair_high_ff pos ff, fun ff ss =>
      repair_high_ss pos ff ss, fun ff ss mm => repair_high_mm pos ff ss mm,
      fun ff ss mm hh => repair_high_hh ff ss mm hh, fun ff ss mm hh => ⟨fun yes => ?_, fun no => ?_⟩⟩
    · rw [repair_in_range ff ss mm hh, Timebase.undropped, if_pos (dropped.mpr yes)]
      rfl
    · rw [repair_in_range ff ss mm hh, Timebase.undropped, if_neg (mt dropped.mp no)]
  · intro tb m f h pos r
    have valid := repair_valid h (labelOf f)
    have below := (number_label h valid).1
    have day : 0 < tb.day := by omega
    have low : f.phase.toNat < m → r.1 = ⟨tb.number (tb.repair (labelOf f)), f.phase.toNat⟩ := fun lt => if_pos lt
    have high : m ≤ f.phase.toNat → r.1 = ⟨(tb.number (tb.repair (labelOf f)) + 1) % tb.day, 0⟩ := fun le =>
      if_neg (Nat.not_lt.mpr le)
    have replaced : r.2 = !(tb.labelValid (labelOf f) && decide (f.phase.toNat < m)) := rfl
    refine ⟨?_, ?_, valid, fun kept lt => ?_, fun changed => ?_, low, high⟩
    · rcases Nat.lt_or_ge f.phase.toNat m with lt | ge
      · rw [low lt]
        exact below
      · rw [high ge]
        exact Nat.mod_lt _ day
    · rcases Nat.lt_or_ge f.phase.toNat m with lt | ge
      · rw [low lt]
        exact lt
      · rw [high ge]
        exact pos
    · refine Prod.ext ?_ ?_
      · rw [low lt, repair_of_valid kept]
      · rw [replaced, kept, decide_eq_true lt]
        rfl
    · rw [replaced, Bool.not_eq_true', ← Bool.not_eq_true, Bool.and_eq_true, decide_eq_true_eq]
      exact changed

end Sys2Proof.Machine
end

section
/-! The lookups between serial and timecode (R39, R40), and heads mapped from train to train (R41). -/

namespace Sys2Proof.Machine

/-! ## Serial to timecode -/

section timecode
variable {tb : Timebase} {t : Train} {m : AnchorMap} {n : Nat}

theorem timecodeOf_lost (h : t.retained n = false) : timecodeOf tb t m n = .notFound := by
  rw [timecodeOf, h]
  rfl

/-- The anchor a serial is counted on from: the last whose serial does not lie above it (R39). -/
def AnchorMap.below (m : AnchorMap) (n : Nat) : Option Anchor := m.anchors.reverse.find? fun a => decide (a.serial ≤ n)

/-- The timecode counted on from an anchor (R39). -/
def Anchor.counted (tb : Timebase) (t : Train) (a : Anchor) (n : Nat) : Timecode :=
  let k := a.phase + (n - a.serial)
  ⟨(a.tcnum + k / t.multiple) % tb.day, k % t.multiple⟩

theorem timecodeOf_retained (h : t.retained n = true) : timecodeOf tb t m n =
    (m.below n).elim .untimed fun a => .found (a.counted tb t n) := by
  rw [timecodeOf, if_pos h, AnchorMap.below]
  cases m.anchors.reverse.find? fun a => decide (a.serial ≤ n) <;> rfl

theorem below_none : m.below n = none ↔ ∀ a ∈ m.anchors, n < a.serial := by
  rw [AnchorMap.below, List.find?_eq_none]
  simp

/-- With rising serials, the anchor counted on from is the one with the greatest serial not above n. -/
theorem below_some (sorted : (m.anchors.map (·.serial)).Pairwise (· < ·)) {a : Anchor} (ha : a ∈ m.anchors)
    (low : a.serial ≤ n) (greatest : ∀ g ∈ m.anchors, g.serial ≤ n → g.serial ≤ a.serial) : m.below n = some a := by
  rw [AnchorMap.below]
  cases found : m.anchors.reverse.find? fun a => decide (a.serial ≤ n) with
  | none => exact absurd (decide_eq_true low) (List.find?_eq_none.mp found a (List.mem_reverse.mpr ha))
  | some b =>
    obtain ⟨lowB, pre, post, split, passed⟩ := List.find?_eq_some_iff_append.mp found
    have anchors : m.anchors = post.reverse ++ b :: pre.reverse := by
      rw [← List.reverse_reverse m.anchors, split]
      simp
    have order := List.pairwise_map.mp sorted
    have le := greatest b (by rw [anchors]; simp) (of_decide_eq_true lowB)
    rw [anchors] at ha order
    rcases List.mem_append.mp ha with before | at'
    · have := (List.pairwise_append.mp order).2.2 a before b List.mem_cons_self
      omega
    · rcases List.mem_cons.mp at' with rfl | after
      · rfl
      · have := passed a (List.mem_reverse.mp after)
        simp only [Bool.not_eq_true', decide_eq_false_iff_not] at this
        exact absurd low this

theorem timecodeOf_found {tc : Timecode} (h : timecodeOf tb t m n = .found tc) :
    t.retained n = true ∧ ∃ a : Anchor, tc = a.counted tb t n := by
  cases kept : t.retained n with
  | false => rw [timecodeOf_lost kept] at h; cases h
  | true =>
    rw [timecodeOf_retained kept] at h
    cases below : m.below n with
    | none => rw [below] at h; cases h
    | some a =>
      rw [below] at h
      injection h with same
      exact ⟨rfl, a, same.symm⟩

theorem counted_phase (pos : 0 < t.multiple) (a : Anchor) : (a.counted tb t n).phase < t.multiple :=
  Nat.mod_lt _ pos

end timecode

/-! ## Timecode to serial -/

/-- The end of an anchor's range, exclusive, with these anchors newer (R35). -/
def limitBefore (newest : Nat) (newer : List Anchor) : Nat := (newer.head?.map (·.serial)).getD newest

theorem withLimits_cons (newest : Nat) (a : Anchor) (newer : List Anchor) :
    withLimits newest (a :: newer) = (a, limitBefore newest newer) :: withLimits newest newer := by
  cases newer <;> rfl

theorem withLimits_append (newest : Nat) (older : List Anchor) (a : Anchor) (newer : List Anchor) :
    ∃ pre, withLimits newest (older ++ a :: newer) =
      pre ++ (a, limitBefore newest newer) :: withLimits newest newer := by
  induction older with
  | nil => exact ⟨[], withLimits_cons ..⟩
  | cons b rest ih =>
    obtain ⟨pre, h⟩ := ih
    exact ⟨(b, limitBefore newest (rest ++ a :: newer)) :: pre, by rw [List.cons_append, withLimits_cons, h]; rfl⟩

theorem mem_withLimits {newest : Nat} {l : List Anchor} {al : Anchor × Nat} (h : al ∈ withLimits newest l) :
    ∃ older newer, l = older ++ al.1 :: newer ∧ al.2 = limitBefore newest newer := by
  induction l with
  | nil => cases h
  | cons a rest ih =>
    rw [withLimits_cons] at h
    rcases List.mem_cons.mp h with rfl | later
    · exact ⟨[], rest, rfl, rfl⟩
    · obtain ⟨older, newer, rfl, limit⟩ := ih later
      exact ⟨a :: older, newer, rfl, limit⟩

section serial
variable {tb : Timebase} {t : Train} {m : AnchorMap} {tc p n : Nat}

/-- An anchor, with these newer, names serial n for a timecode and phase (R40). -/
def Anchor.names (tb : Timebase) (t : Train) (tc p : Nat) (a : Anchor) (newer : List Anchor) (n : Nat) : Prop :=
  (n : Int) = a.serial + (((tc : Int) - a.tcnum) % tb.day * t.multiple + p - a.phase) ∧ a.serial ≤ n ∧
    (∀ g, newer.head? = some g → n < g.serial) ∧ (newer = [] → ∃ edge, t.recordEdge = some edge ∧ n ≤ edge) ∧
    t.retained n = true

theorem below_limit_iff {newer : List Anchor} : n < limitBefore t.newestLimit newer ↔
    (∀ g, newer.head? = some g → n < g.serial) ∧ (newer = [] → ∃ edge, t.recordEdge = some edge ∧ n ≤ edge) := by
  cases newer with
  | cons g rest => simp [limitBefore]
  | nil =>
    unfold limitBefore Train.newestLimit
    cases t.recordEdge with
    | none => simp
    | some edge => simp

theorem anchorMatch_iff {a : Anchor} {newer : List Anchor} :
    anchorMatch tb t tc p (a, limitBefore t.newestLimit newer) = some n ↔ a.names tb t tc p newer n := by
  unfold anchorMatch Anchor.names
  dsimp only
  generalize ((tc : Int) - a.tcnum) % tb.day * t.multiple + p - a.phase = k
  rw [Option.ite_none_right_eq_some, Option.some.injEq]
  constructor
  · rintro ⟨⟨pos, limit, kept⟩, rfl⟩
    obtain ⟨next, edge⟩ := below_limit_iff.mp limit
    exact ⟨by omega, by omega, next, edge, kept⟩
  · rintro ⟨serial, low, next, edge, kept⟩
    have same : a.serial + k.toNat = n := by omega
    rw [same]
    exact ⟨⟨by omega, below_limit_iff.mpr ⟨next, edge⟩, kept⟩, rfl⟩

/-- A serial found is one that an anchor of the list names. -/
theorem serialOf_some (h : serialOf tb t m tc p = some n) :
    ∃ older a newer, m.anchors = older ++ a :: newer ∧ a.names tb t tc p newer n := by
  obtain ⟨pre, al, post, split, found, -⟩ := List.findSome?_eq_some_iff.mp h
  have member : al ∈ withLimits t.newestLimit m.anchors :=
    List.mem_reverse.mp (by rw [split]; simp)
  obtain ⟨older, newer, anchors, limit⟩ := mem_withLimits member
  have pair : al = (al.1, limitBefore t.newestLimit newer) := Prod.ext rfl limit
  rw [pair] at found
  exact ⟨older, al.1, newer, anchors, anchorMatch_iff.mp found⟩

/-- The newest anchor that names a serial gives the result (R40). -/
theorem serialOf_newest {older newer : List Anchor} {a : Anchor} (anchors : m.anchors = older ++ a :: newer)
    (here : a.names tb t tc p newer n)
    (newest : ∀ between g rest k, newer = between ++ g :: rest → ¬g.names tb t tc p rest k) :
    serialOf tb t m tc p = some n := by
  obtain ⟨pre, split⟩ := withLimits_append t.newestLimit older a newer
  rw [serialOf, anchors, split, List.reverse_append, List.reverse_cons, List.append_assoc, List.singleton_append]
  refine List.findSome?_eq_some_iff.mpr ⟨_, _, _, rfl, anchorMatch_iff.mpr here, fun al hal => ?_⟩
  obtain ⟨between, rest, isNewer, limit⟩ := mem_withLimits (List.mem_reverse.mp hal)
  refine Option.eq_none_iff_forall_ne_some.mpr fun k found => ?_
  rw [show al = (al.1, limitBefore t.newestLimit rest) from Prod.ext rfl limit] at found
  exact newest between al.1 rest k isNewer (anchorMatch_iff.mp found)

theorem serialOf_none (none : ∀ older a newer k, m.anchors = older ++ a :: newer → ¬a.names tb t tc p newer k) :
    serialOf tb t m tc p = .none := by
  refine Option.eq_none_iff_forall_ne_some.mpr fun k found => ?_
  obtain ⟨older, a, newer, anchors, here⟩ := serialOf_some found
  exact none older a newer k anchors here

/-- The anchor that names a serial is the one it is counted on from. -/
theorem below_of_names (sorted : (m.anchors.map (·.serial)).Pairwise (· < ·)) {older newer : List Anchor} {a : Anchor}
    (anchors : m.anchors = older ++ a :: newer) (here : a.names tb t tc p newer n) : m.below n = some a := by
  obtain ⟨-, low, next, -, -⟩ := here
  refine below_some sorted (by rw [anchors]; simp) low fun g hg below => ?_
  have order := List.pairwise_map.mp sorted
  rw [anchors] at hg order
  obtain ⟨-, right, across⟩ := List.pairwise_append.mp order
  rcases List.mem_append.mp hg with before | at'
  · exact (across g before a List.mem_cons_self).le
  · rcases List.mem_cons.mp at' with rfl | after
    · exact le_rfl
    · cases newer with
      | nil => cases after
      | cons head rest =>
        have above := next head rfl
        have rising := (List.pairwise_cons.mp (List.pairwise_cons.mp right).2).1
        rcases List.mem_cons.mp after with rfl | later
        · omega
        · have := rising g later
          omega

/-- Counting on to a serial an anchor names gives the timecode asked for. -/
theorem counted_of_names {a : Anchor} {newer : List Anchor} (day : tc < tb.day) (phase : p < t.multiple)
    (here : a.names tb t tc p newer n) : a.counted tb t n = ⟨tc, p⟩ := by
  obtain ⟨serial, low, -⟩ := here
  have dayPos : (0 : Int) < tb.day := by omega
  obtain ⟨w, hw⟩ := Int.eq_ofNat_of_zero_le (Int.emod_nonneg ((tc : Int) - a.tcnum) (Int.ne_of_gt dayPos))
  have place : a.phase + (n - a.serial) = t.multiple * w + p := by
    rw [hw] at serial
    have cast : ((t.multiple * w : Nat) : Int) = (w : Int) * t.multiple := by
      rw [Nat.cast_mul, Int.mul_comm]
    omega
  have frames : (t.multiple * w + p) / t.multiple = w := by
    rw [Nat.mul_add_div (by omega), Nat.div_eq_of_lt phase, Nat.add_zero]
  have number : (a.tcnum + w) % tb.day = tc := by
    have int : (((a.tcnum + w : Nat) : Int)) % tb.day = tc := by
      rw [Nat.cast_add, ← hw, Int.add_emod_emod, show (a.tcnum : Int) + ((tc : Int) - a.tcnum) = tc by omega]
      exact Int.emod_eq_of_lt (by omega) (by omega)
    exact_mod_cast int
  unfold Anchor.counted
  dsimp only
  rw [place, frames, number, Nat.mul_add_mod, Nat.mod_eq_of_lt phase]

end serial

/-- Settles O21. -/
theorem lookupsAgree : Obligations.LookupsAgree := by
  intro tb t m day multiple
  refine ⟨fun n tc found => ?_, fun n => timecodeOf_lost, fun n kept => ?_, fun n a ha sorted kept low greatest => ?_,
    fun tc p n found => ?_, fun tc p n lowTc lowP sorted found => ?_, fun tc p => ?_⟩
  · obtain ⟨kept, a, rfl⟩ := timecodeOf_found found
    exact ⟨kept, Nat.mod_lt _ day, counted_phase multiple a⟩
  · rw [timecodeOf_retained kept, ← below_none]
    cases m.below n <;> simp
  · intro k
    rw [timecodeOf_retained kept, below_some sorted ha low greatest]
    rfl
  · obtain ⟨_, _, _, -, -, -, -, -, kept⟩ := serialOf_some found
    exact kept
  · obtain ⟨older, a, newer, anchors, here⟩ := serialOf_some found
    rw [timecodeOf_retained here.2.2.2.2, below_of_names sorted anchors here]
    exact congrArg Lookup.found (counted_of_names lowTc lowP here)
  · intro names
    exact ⟨fun older a newer n anchors here newest => serialOf_newest anchors here fun between g rest k split =>
      newest between g rest k split, fun none => serialOf_none none⟩

/-! ## Heads mapped -/

section heads
variable {s : State} {x y : TrainId} {h : Nat}

/-- A frame's place within its timecode frame, scaled from one multiple to another (R41, step 2). -/
def scaledPlace (phase fraction mx my : Nat) : Nat := (phase * 1200 + fraction) * my / mx

theorem scaledPlace_lt {phase fraction mx my : Nat} (low : phase < mx) (part : fraction < 1200) (pos : 0 < my) :
    scaledPlace phase fraction mx my / 1200 < my := by
  have whole : (phase * 1200 + fraction) * my < mx * (my * 1200) := by
    have : phase * 1200 + fraction < mx * 1200 := by omega
    calc (phase * 1200 + fraction) * my < mx * 1200 * my := Nat.mul_lt_mul_of_pos_right this pos
      _ = mx * (my * 1200) := by ring
  rw [Nat.div_lt_iff_lt_mul (by decide)]
  exact Nat.div_lt_of_lt_mul whole

theorem scaledPlace_self {phase fraction mx : Nat} (low : phase < mx) (part : fraction < 1200) :
    scaledPlace phase fraction mx mx / 1200 = phase ∧ scaledPlace phase fraction mx mx % 1200 = fraction := by
  rw [scaledPlace, Nat.mul_div_cancel _ (by omega)]
  omega

theorem mapHead_across (ne : x ≠ y) : s.mapHead x y h =
    mapAcross s.timebase (s.train x) (s.map x) (s.train y) (s.map y) h := if_neg ne

/-- The other train's frame for a frame with a timecode (R41, steps 2 to 5). -/
theorem mapHead_found {tc : Timecode} (ne : x ≠ y)
    (found : timecodeOf s.timebase (s.train x) (s.map x) (h / 1200) = .found tc) : s.mapHead x y h =
      let u := scaledPlace tc.phase (h % 1200) (s.train x).multiple (s.train y).multiple
      (serialOf s.timebase (s.train y) (s.map y) tc.tcnum (u / 1200)).elim .notFound
        fun n => .found (n * 1200 + u % 1200) := by
  have found' : timecodeOf s.timebase (s.train x) (s.map x) (h / Config.sfu) = .found tc := found
  rw [mapHead_across ne, mapAcross, found']
  simp only [show Config.sfu = 1200 from rfl, scaledPlace]
  cases serialOf s.timebase (s.train y) (s.map y) tc.tcnum
    ((tc.phase * 1200 + h % 1200) * (s.train y).multiple / (s.train x).multiple / 1200) <;> rfl

theorem mapHead_lost (ne : x ≠ y)
    (lost : timecodeOf s.timebase (s.train x) (s.map x) (h / 1200) = .notFound) : s.mapHead x y h = .notFound := by
  have lost' : timecodeOf s.timebase (s.train x) (s.map x) (h / Config.sfu) = .notFound := lost
  rw [mapHead_across ne, mapAcross, lost']

theorem mapHead_untimed (ne : x ≠ y)
    (untimed : timecodeOf s.timebase (s.train x) (s.map x) (h / 1200) = .untimed) : s.mapHead x y h = .untimed := by
  have untimed' : timecodeOf s.timebase (s.train x) (s.map x) (h / Config.sfu) = .untimed := untimed
  rw [mapHead_across ne, mapAcross, untimed']

end heads

/-- Settles O22. -/
theorem headsMapped : Obligations.HeadsMapped := by
  intro s x y h
  refine ⟨if_pos rfl, ?_⟩
  intro ne pos here
  refine ⟨mapHead_untimed ne, mapHead_lost ne, ?_⟩
  intro tc found u serial
  have result : s.mapHead x y h = serial.elim .notFound fun n => .found (n * 1200 + u % 1200) := mapHead_found ne found
  obtain ⟨-, a, rfl⟩ := timecodeOf_found found
  have low := counted_phase (tb := s.timebase) (n := h / 1200) pos a
  have part : h % 1200 < 1200 := Nat.mod_lt _ (by decide)
  refine ⟨scaledPlace_lt low part, fun same => ?_, fun none => ?_, fun n some => ?_⟩
  · have self := scaledPlace_self low part
    change scaledPlace _ _ _ (s.train y).multiple / 1200 = _ ∧ scaledPlace _ _ _ (s.train y).multiple % 1200 = _
    rw [same]
    exact self
  · rw [result, none]
    rfl
  · obtain ⟨_, _, _, -, -, -, -, -, kept⟩ := serialOf_some some
    rw [result, some]
    exact ⟨rfl, kept⟩

end Sys2Proof.Machine
end

section
/-! Power, reset and the step (spec 10 R189, R190; spec 11 R194): what the queue's front command does, the power-on
values and the laws they meet, and what each reset clears and keeps. -/

namespace Sys2Proof.Machine
open Sys2Proof

/-! ## The step -/

/-- Settles O1. -/
theorem stepTakesFront : Obligations.StepTakesFront := by
  refine ⟨fun i rest s front => ?_, fun s empty held => ?_, fun s i empty powered own => ?_,
    fun s empty powered own => ?_⟩
  · simp only [step, front]
  · simp only [step, empty, held, if_true]
  · simp [step, empty, powered, own]
  · simp [step, empty, powered, own, State.tick, timePlus, Config.wrap32]

/-! ## Power-on values -/

theorem reset_storeCleared : State.reset.storeCleared := by
  refine ⟨fun x => ⟨?_, ?_⟩, rfl, rfl⟩
  · simp [State.train, State.reset, Train.initial]
  · simp [State.map, State.reset, AnchorMap.initial]

/-- The channel records and the play queues that every reset leaves (Table 3-1). -/
theorem playbackCleared_of_initial {s : State} (channels : s.channels = initialChannels)
    (queues : s.queues = Vector.replicate 6 .initial) : s.playbackCleared := by
  intro c
  unfold State.channel State.queue
  rw [channels, queues]
  refine ⟨?_, by simp [PlayQueue.initial]⟩
  revert c
  decide

theorem reset_playbackCleared : State.reset.playbackCleared := playbackCleared_of_initial rfl rfl

theorem reset_panel (p : PanelId) : State.reset.panel p = .initial 0 := by
  simp [State.panel, State.reset]

/-- A panel record as a reset leaves it, whatever its lane sends (Table 5-1). -/
theorem panelsCleared_of_initial {s : State} {now : Nat}
    (panels : ∀ p, ∃ e, s.panel p = { Panel.initial now with sending := e }) : s.panelsCleared now := by
  intro p
  obtain ⟨e, panel⟩ := panels p
  rw [panel]
  exact ⟨rfl, rfl, rfl, rfl, rfl, rfl⟩

theorem reset_receiver (l : Link) : State.reset.receiver l = .initial := by
  simp [State.receiver, State.reset]

theorem reset_powerOnValues : State.reset.powerOnValues := by
  refine ⟨reset_storeCleared, reset_playbackCleared, panelsCleared_of_initial fun p => ⟨none, reset_panel p⟩,
    ⟨rfl, rfl, rfl⟩, ⟨rfl, rfl⟩, rfl, rfl, rfl, fun l => ?_, rfl, rfl, fun p => ?_⟩
  · rw [reset_receiver]
    exact ⟨rfl, rfl⟩
  · rw [reset_panel]
    rfl

/-! ## The laws at the power-on values

Each law reads the tables alone, so it holds of any state with the tables of a reset. -/

theorem reset_channel (c : ChannelId) : State.reset.channel c = .initial c := by
  revert c
  decide

theorem reset_queue (c : ChannelId) : State.reset.queue c = .initial := by
  simp [State.queue, State.reset]

theorem reset_train (x : TrainId) : State.reset.train x = .initial := by
  simp [State.train, State.reset]

theorem initialTrain_chainLaw : Train.initial.chainLaw := by
  refine ⟨List.Pairwise.nil, by simp [Train.initial], by simp [Train.initial], by simp [Train.current, Train.initial],
    by simp [Train.initial], rfl⟩

theorem reset_bounded : State.reset.bounded := by decide

theorem reset_queueLaw : State.reset.queueLaw := by
  intro c
  rw [reset_queue]
  exact ⟨by decide, fun playing => absurd playing (by decide)⟩

theorem reset_speedsFit : State.reset.speedsFit := by
  intro c
  rw [reset_channel]
  exact ⟨rfl, rfl⟩

theorem reset_gangLaw : State.reset.gangLaw := by
  have idle : ∀ c, (State.reset.channel c).state ≠ .following ∧ (State.reset.channel c).isFollower = false ∧
      (State.reset.channel c).role ≠ .leader := by decide
  refine ⟨fun c => ?_, fun l f _ => ?_⟩
  · obtain ⟨free, single, first⟩ := idle c
    exact ⟨by simp [free, single], fun h => absurd h free, fun h => absurd h first⟩
  · simp [(idle l).2.2, (idle f).2.1]

theorem defaultCurve_keepsRules : defaultCurve.head? = some ⟨0, 0⟩ ∧
    defaultCurve.getLast?.map (·.lever) = some 1000 ∧
    defaultCurve.Pairwise (fun m n => m.lever < n.lever ∧ m.speed ≤ n.speed) ∧
    ∀ q ∈ defaultCurve, q.speed ≤ 38400 := by decide

theorem reset_speedLaw : State.reset.speedLaw := by
  refine ⟨by decide, fun k mem => absurd mem List.not_mem_nil, fun c e mem => ?_, fun p => ?_⟩
  · rw [reset_queue] at mem
    exact absurd mem List.not_mem_nil
  · rw [reset_panel]
    exact defaultCurve_keepsRules

theorem reset_trainLaw : State.reset.trainLaw := by
  have no_pool : ∀ x, (State.reset.train x).pool = none := fun x => by rw [reset_train]; rfl
  refine ⟨fun x => ?_, fun x => ?_, fun x p pool => ?_, fun x y p q e _ pool => ?_⟩
  · rw [reset_train]
    exact initialTrain_chainLaw
  · rw [reset_train]
    exact ⟨fun _ => rfl, fun _ => rfl⟩
  · simp [no_pool] at pool
  · simp [no_pool] at pool

theorem reset_tableLaw : State.reset.tableLaw := by
  refine ⟨rfl, List.Pairwise.nil, fun k mem => absurd mem List.not_mem_nil, fun p q c bound => ?_⟩
  rw [reset_panel] at bound
  cases bound

theorem reset_lanesRunning : State.reset.lanesRunning :=
  ⟨fun _ => ⟨rfl, rfl⟩, fun _ => rfl, fun _ => rfl, fun p _ => by rw [reset_panel]; rfl⟩

/-- Settles O2. -/
theorem resetHoldsPowerOnValues : Obligations.ResetHoldsPowerOnValues :=
  ⟨reset_powerOnValues, ⟨reset_bounded, reset_queueLaw, reset_speedsFit, reset_speedLaw, reset_gangLaw,
    reset_trainLaw, reset_tableLaw, reset_lanesRunning⟩, rfl, rfl⟩

/-! ## The reset input -/

/-- While the reset input is asserted every row but the two of the power-on reset leaves the device as it is (R194). -/
theorem exec_held {i : Instr} {s : State} (held : s.resetAsserted = true) (on : i ≠ .powerOnReset)
    (release : i ≠ .resetInputRelease) : exec i s = .next s := by
  obtain ⟨_, _, _, _, _, _, _, _, _, _, _, _, _, _, _, _, _, _, _, _, _⟩ := s
  subst held
  cases i with
  | powerOnReset => exact absurd rfl on
  | resetInputRelease => exact absurd rfl release
  | _ => rfl

/-- Settles O3. -/
theorem resetInput : Obligations.ResetInput := by
  refine ⟨⟨fun s => ?_, fun s held => ?_, fun s released => ?_⟩, fun i s held on release => ?_⟩
  · exact ⟨_, rfl, reset_powerOnValues, rfl, rfl⟩
  · refine ⟨{ State.reset with pending := s.pending, freeReads := s.freeReads }, ?_, reset_powerOnValues, rfl, rfl⟩
    simp only [exec, execResetInputRelease, held, if_true]
  · simp [exec, execResetInputRelease, released]
  · exact exec_held held on release

/-! ## RESET -/

theorem resetAll_panel (s : State) (p : PanelId) :
    s.resetAll.panel p = { Panel.initial s.time with sending := (s.panel p).sending } := by
  simp [State.resetAll, State.panel, Panel.resetAll]

theorem resetPlayback_panel (s : State) (p : PanelId) : s.resetPlayback.panel p = (s.panel p).resetPlayback s.time := by
  simp [State.resetPlayback, State.panel]

theorem resetAll_receiver_control (s : State) : s.resetAll.receiver .control = s.receiver .control := by
  simp [State.resetAll, State.receiver, resetReceivers, linkIndex]

theorem resetAll_receiver_ne (s : State) {l : Link} (other : l ≠ .control) : s.resetAll.receiver l = .initial := by
  have apart : (linkIndex l).val ≠ 0 := fun same => other (linkIndex_injective (Fin.ext same))
  simp only [State.resetAll, State.receiver, resetReceivers]
  exact (Vector.getElem_set_ne (by decide) (linkIndex l).isLt apart.symm).trans (by simp)

/-- The alarm of a RESET with scope ALL: the settings' defaults, the line and the hold those of a clear (R187, R189). -/
theorem resetAll_alarm (s : State) : s.resetAll.alarm =
    { mask := 0x3F, holdTime := 500, line := (s.alarm.clear s.time).line, hold := (s.alarm.clear s.time).hold } := rfl

/-- Settles O4. -/
theorem resetCommands : Obligations.ResetCommands := by
  refine ⟨fun tag u s taken => ?_, fun tag u s taken => ?_⟩
  · refine ⟨s.resetAll, accepted_of_done (f := resetAll) rfl taken rfl, reset_storeCleared,
      playbackCleared_of_initial rfl rfl, panelsCleared_of_initial fun p => ⟨_, resetAll_panel s p⟩, ⟨rfl, rfl, rfl⟩,
      ⟨rfl, rfl⟩, fun p => by rw [resetAll_panel], rfl, rfl, rfl, rfl, rfl, rfl, resetAll_receiver_control s,
      fun l other => by rw [resetAll_receiver_ne s other]; exact ⟨rfl, rfl⟩, rfl, rfl, fun line => ?_,
      fun line runs => ?_, fun line stopped => ?_⟩
    · rw [resetAll_alarm, clear_released line]
      exact ⟨rfl, rfl⟩
    · rw [resetAll_alarm, clear_running line runs]
      exact ⟨rfl, rfl⟩
    · rw [resetAll_alarm, clear_stopped line stopped]
      exact ⟨rfl, rfl⟩
  · exact ⟨s.resetPlayback, accepted_of_done (f := resetPlayback) rfl taken rfl, playbackCleared_of_initial rfl rfl,
      resetPlayback_panel s, ⟨rfl, rfl, rfl, rfl⟩, ⟨rfl, rfl⟩, ⟨rfl, rfl⟩, ⟨rfl, rfl, rfl, rfl, rfl, rfl, rfl⟩, rfl, rfl⟩

end Sys2Proof.Machine
end

section
/-! The command port, the lanes and the report queue, said once: how a command waits, what each lane takes next, and
which report a full queue gives up (spec 10 R178 to R187; spec 11 R192). -/

namespace Sys2Proof.Machine
open Sys2Proof

/-! ## The turn of a command -/

/-- The row of a command record: kind and tag answer it, and its turn at the port is all that happens (R178, R179). -/
def ComesAs (i : Instr) (kind tag : Byte) : Prop :=
  ∃ carry : State → State, ∀ s, exec i s = powered s fun s => s.turn i kind tag carry

theorem comesAs_of_row {α : Type} {i : Instr} {k kind tag : Byte} {a : Sent α} {f : α → State → Verdict}
    (row : ∀ s, exec i s = command i k tag a f s) (same : kind.toNat = k.toNat) : ComesAs i kind tag := by
  obtain rfl : kind = k := BitVec.eq_of_toNat_eq same
  exact ⟨_, row⟩

theorem unknownKind_comesAs (kind tag : Byte) : ComesAs (Instr.unknownKind kind tag) kind tag := ⟨_, fun _ => rfl⟩

section kinds

variable (kind tag : Byte) (body : List Byte)

theorem trainCommand_comesAs : ComesAs (trainCommand kind tag body) kind tag := by
  unfold trainCommand
  split
  case h_7 => exact unknownKind_comesAs kind tag
  all_goals exact comesAs_of_row (fun _ => rfl) ‹_›

theorem transportCommand_comesAs : ComesAs (transportCommand kind tag body) kind tag := by
  unfold transportCommand
  split
  case h_14 => exact unknownKind_comesAs kind tag
  all_goals exact comesAs_of_row (fun _ => rfl) ‹_›

theorem operatorCommand_comesAs : ComesAs (operatorCommand kind tag body) kind tag := by
  unfold operatorCommand
  split
  case h_13 => exact unknownKind_comesAs kind tag
  all_goals exact comesAs_of_row (fun _ => rfl) ‹_›

theorem clipCommand_comesAs : ComesAs (clipCommand kind tag body) kind tag := by
  unfold clipCommand
  split
  case h_14 => exact unknownKind_comesAs kind tag
  all_goals exact comesAs_of_row (fun _ => rfl) ‹_›

theorem queryStatusOf_comesAs (same : kind.toNat = 0x61) : ComesAs (queryStatusOf tag body) kind tag := by
  unfold queryStatusOf
  split
  · split
    all_goals exact comesAs_of_row (fun _ => rfl) same
  · exact comesAs_of_row (fun _ => rfl) same

theorem resetOf_comesAs (same : kind.toNat = 0x65) : ComesAs (resetOf tag body) kind tag := by
  unfold resetOf
  split
  · split
    all_goals exact comesAs_of_row (fun _ => rfl) same
  · exact comesAs_of_row (fun _ => rfl) same

theorem unitCommand_comesAs : ComesAs (unitCommand kind tag body) kind tag := by
  unfold unitCommand
  split
  case h_10 => exact queryStatusOf_comesAs kind tag body ‹_›
  case h_14 => exact resetOf_comesAs kind tag body ‹_›
  case h_15 => exact unknownKind_comesAs kind tag
  all_goals exact comesAs_of_row (fun _ => rfl) ‹_›

/-- The row that a record of the control link is decoded to answers with the record's own kind and tag. -/
theorem decodeCommand_comesAs : ComesAs (decodeCommand kind tag body) kind tag := by
  unfold decodeCommand
  split
  · exact trainCommand_comesAs kind tag body
  split
  · exact transportCommand_comesAs kind tag body
  split
  · exact operatorCommand_comesAs kind tag body
  split
  · exact clipCommand_comesAs kind tag body
  · exact unitCommand_comesAs kind tag body

end kinds

/-- A command whose turn it is not arrives (log 1). -/
theorem turn_arrives {s : State} {i : Instr} {kind tag : Byte} {carry : State → State}
    (waits : (s.port.waiting = [] ∧ 4 ≤ s.port.placesHeld) ∨ ∃ j rest, s.port.waiting = j :: rest ∧ j ≠ i) :
    s.turn i kind tag carry = s.arrive i kind tag := by
  unfold State.turn
  obtain ⟨empty, full⟩ | ⟨j, rest, front, other⟩ := waits
  · rw [empty]
    exact if_neg (by omega)
  · rw [front]
    exact if_neg other

theorem exec_eq_powered {s : State} {i : Instr} {f : State → State} (row : exec i s = powered s f)
    (on : s.resetAsserted = false) : exec i s = .next (f s).startLanes := by
  rw [row, powered, on]
  rfl

section arrival

variable {s : State} {i : Instr} {kind tag : Byte}

theorem arrive_waits (place : s.port.placesHeld < 4) :
    s.arrive i kind tag = { s with port := { s.port with waiting := s.port.waiting ++ [i] } } := if_pos place

theorem arrive_overload (full : 4 ≤ s.port.placesHeld) (room : s.port.overloads < 8) : s.arrive i kind tag =
    (s.formReply kind tag .overload .empty true).recordFault .controlOverload none := by
  simp only [State.arrive, if_neg (show ¬s.port.placesHeld < 4 by omega), if_pos room]

theorem arrive_flooded (full : 4 ≤ s.port.placesHeld) (flooded : 8 ≤ s.port.overloads) :
    s.arrive i kind tag = s.recordFault .controlOverload none := by
  simp only [State.arrive, if_neg (show ¬s.port.placesHeld < 4 by omega),
    if_neg (show ¬s.port.overloads < 8 by omega)]

end arrival

/-- Settles O5. -/
theorem commandArrival : Obligations.CommandArrival := by
  have arrival : ∀ (kind tag : Byte) (body : List Byte) (s : State), exec (.commandArrival kind tag body) s =
      powered s fun s => s.arrive (decodeCommand kind tag body) kind tag := fun _ _ _ _ => rfl
  refine ⟨fun kind tag body s on => ?_, fun kind tag body s on waits => ?_⟩
  · have row := exec_eq_powered (arrival kind tag body s) on
    intro leaves
    refine ⟨fun place => ?_, fun full room => ?_, fun full flooded => ?_⟩
    · rw [arrive_waits place] at row
      exact row
    · rw [arrive_overload full room] at row
      exact row
    · rw [arrive_flooded full flooded] at row
      exact row
  · obtain ⟨carry, row⟩ := decodeCommand_comesAs kind tag body
    rw [exec_eq_powered (row s) on, exec_eq_powered (arrival kind tag body s) on, turn_arrives waits]

/-! ## The next report -/

theorem le_highestPriority {r : Report} : ∀ {l : List Report}, r ∈ l → r.priority ≤ highestPriority l
  | a :: rest, mem => by
    have top : highestPriority (a :: rest) = max a.priority (highestPriority rest) := rfl
    obtain rfl | deeper := List.mem_cons.mp mem
    · omega
    · have := le_highestPriority deeper
      omega

theorem highestPriority_le {n : Nat} : ∀ {l : List Report}, (∀ q ∈ l, q.priority ≤ n) → highestPriority l ≤ n
  | [], _ => Nat.zero_le n
  | a :: rest, low => by
    have top : highestPriority (a :: rest) = max a.priority (highestPriority rest) := rfl
    have := low a List.mem_cons_self
    have := highestPriority_le (l := rest) fun q mem => low q (List.mem_cons_of_mem a mem)
    omega

theorem lowestPriority_le {r : Report} : ∀ {l : List Report}, r ∈ l → lowestPriority l ≤ r.priority
  | a :: rest, mem => by
    have low : lowestPriority (a :: rest) = min a.priority (lowestPriority rest) := rfl
    obtain rfl | deeper := List.mem_cons.mp mem
    · omega
    · have := lowestPriority_le deeper
      omega

theorem le_lowestPriority {n : Nat} (small : n ≤ 3) :
    ∀ {l : List Report}, (∀ q ∈ l, n ≤ q.priority) → n ≤ lowestPriority l
  | [], _ => small
  | a :: rest, high => by
    have low : lowestPriority (a :: rest) = min a.priority (lowestPriority rest) := rfl
    have := high a List.mem_cons_self
    have := le_lowestPriority small (l := rest) fun q mem => high q (List.mem_cons_of_mem a mem)
    omega

/-- The first element of a list that passes a test is found, and erased, past those that fail it. -/
theorem find?_past {α : Type} {p : α → Bool} {pre post : List α} {a : α} (fails : ∀ b ∈ pre, p b = false)
    (passes : p a = true) :
    (pre ++ a :: post).find? p = some a ∧ (pre ++ a :: post).eraseP p = pre ++ post := by
  refine ⟨find?_of_append fails passes, ?_⟩
  rw [List.eraseP_append_right _ fun b mem => by simp [fails b mem], List.eraseP_cons_of_pos passes]

section queue

variable {pre post : List Report} {r : Report}

/-- The oldest report of the highest priority held goes next (R183). -/
theorem nextReport_past (older : ∀ q ∈ pre, q.priority < r.priority) (younger : ∀ q ∈ post, q.priority ≤ r.priority) :
    nextReport (pre ++ r :: post) = some r ∧ dropNext (pre ++ r :: post) = pre ++ post := by
  have top : highestPriority (pre ++ r :: post) = r.priority := by
    refine le_antisymm (highestPriority_le fun q mem => ?_) (le_highestPriority (by simp))
    obtain before | rfl | behind : q ∈ pre ∨ q = r ∨ q ∈ post := by simpa using mem
    · exact (older q before).le
    · exact le_rfl
    · exact younger q behind
  unfold nextReport dropNext
  rw [top]
  exact find?_past (fun q mem => by simpa using (older q mem).ne) (by simp)

/-- The youngest report of the lowest priority held is the one a full queue gives up (R183). -/
theorem youngestOf_past (small : r.priority ≤ 3) (older : ∀ q ∈ pre, r.priority ≤ q.priority)
    (younger : ∀ q ∈ post, r.priority < q.priority) :
    lowestPriority (pre ++ r :: post) = r.priority ∧
    youngestOf r.priority (pre ++ r :: post) = some r ∧ dropYoungest r.priority (pre ++ r :: post) = pre ++ post := by
  have turned : (pre ++ r :: post).reverse = post.reverse ++ r :: pre.reverse := by simp
  have found := find?_past (p := fun q : Report => q.priority == r.priority) (pre := post.reverse) (post := pre.reverse)
    (a := r) (fun q mem => by simpa using (younger q (List.mem_reverse.mp mem)).ne') (by simp)
  refine ⟨le_antisymm (lowestPriority_le (by simp)) (le_lowestPriority small fun q mem => ?_), ?_, ?_⟩
  · obtain before | rfl | behind : q ∈ pre ∨ q = r ∨ q ∈ post := by simpa using mem
    · exact older q before
    · exact le_rfl
    · exact (younger q behind).le
  · unfold youngestOf
    rw [turned]
    exact found.1
  · unfold dropYoungest
    rw [turned, found.2]
    simp

end queue

/-! ## The lanes -/

section lanes

variable {s : State}

theorem sendControl_reply {r : WaitingReply} {rest : List WaitingReply} (waiting : s.port.replies = r :: rest) :
    s.sendControl = { s with port := { s.port with replies := rest, sending := some (.reply r.reply) } } := by
  unfold State.sendControl
  rw [waiting]

theorem sendControl_report {r : Report} (none_waits : s.port.replies = [])
    (next : nextReport s.reports.queue = some r) : s.sendControl = { s with
      port := { s.port with sending := some (.report r) }
      reports := { s.reports with queue := dropNext s.reports.queue } } := by
  unfold State.sendControl
  rw [none_waits]
  simp only [next, none_waits]

theorem sendControl_empty (none_waits : s.port.replies = []) (no_report : s.reports.queue = []) :
    s.sendControl = { s with port := { s.port with sending := none } } := by
  unfold State.sendControl
  rw [none_waits, no_report]
  simp [nextReport, none_waits]

/-- The control lane changes the command port and the report unit alone. -/
theorem sendControl_frame (s : State) :
    { s.sendControl with port := s.port, reports := s.reports } = s := by
  unfold State.sendControl
  split
  · rfl
  · split <;> rfl

theorem advance_begins {α : Type} (l : Lane α) : l.begins l.advance := by
  unfold Lane.advance
  refine ⟨fun a rest front => ?_, fun empty => ?_⟩
  · rw [front]
  · rw [empty]

/-- What the control lane begins (R181): the oldest waiting reply, else the report R183 places first, else nothing. -/
theorem sendControl_begins (s : State) :
    (∀ r rest, s.port.replies = r :: rest → s.sendControl.port =
      { s.port with replies := rest, sending := some (.reply r.reply) } ∧ s.sendControl.reports = s.reports) ∧
    (∀ pre r post, s.port.replies = [] → s.reports.queue = pre ++ r :: post →
      (∀ q ∈ pre, q.priority < r.priority) → (∀ q ∈ post, q.priority ≤ r.priority) →
      s.sendControl.port = { s.port with sending := some (.report r) } ∧
        s.sendControl.reports = { s.reports with queue := pre ++ post }) ∧
    (s.port.replies = [] → s.reports.queue = [] →
      s.sendControl.port = { s.port with sending := none } ∧ s.sendControl.reports = s.reports) := by
  refine ⟨fun r rest waiting => ?_, fun pre r post none_waits queue older younger => ?_,
    fun none_waits no_report => ?_⟩
  · rw [sendControl_reply waiting]
    exact ⟨rfl, rfl⟩
  · obtain ⟨next, rest⟩ := nextReport_past older younger
    rw [← queue] at next rest
    rw [sendControl_report none_waits next, rest]
    exact ⟨rfl, rfl⟩
  · rw [sendControl_empty none_waits no_report]
    exact ⟨rfl, rfl⟩

theorem startControl_idle (idle : s.port.sending = none) : s.startControl = s.sendControl := by
  simp [State.startControl, idle]

theorem startControl_sending (busy : s.port.sending ≠ none) : s.startControl = s :=
  if_neg (by simpa using busy)

theorem lane_start_begins {α : Type} {l : Lane α} (idle : l.sending = none) : l.begins l.start := by
  simp only [Lane.start, idle, Option.isNone_none, if_true]
  exact advance_begins l

theorem lane_start_sending {α : Type} {l : Lane α} (busy : l.sending ≠ none) : l.start = l :=
  if_neg (by simpa using busy)

theorem startLanes_ports (s : State) : s.startLanes.port = s.startControl.port ∧
    s.startLanes.reports = s.startControl.reports ∧ s.startLanes.ingest = s.ingest.start ∧
    s.startLanes.playout = s.playout.start := by
  obtain ⟨p, r, control⟩ := startControl_eq s
  unfold State.startLanes
  rw [control]
  exact ⟨rfl, rfl, rfl, rfl⟩

theorem startLanes_frame (s : State) : { s.startLanes with
    port := s.port, reports := s.reports, ingest := s.ingest, playout := s.playout, panels := s.panels } = s := by
  obtain ⟨p, r, i, o, v, lanes⟩ := startLanes_eq s
  rw [lanes]

theorem startEcho_idle {p : Panel} (idle : p.sending = none) :
    p.startEcho = { p with sending := p.pendingEcho, pendingEcho := none } := by
  simp [Panel.startEcho, Panel.sendEcho, idle]

theorem startEcho_sending {p : Panel} (busy : p.sending ≠ none) : p.startEcho = p :=
  if_neg (by simpa using busy)

end lanes

/-- Settles O7. -/
theorem lanesSendInOrder : Obligations.LanesSendInOrder := by
  intro s begun
  refine ⟨fun on => ⟨?_, ?_, ?_, fun p =>
    exec_eq_powered (f := fun s => s.setPanel p (s.panel p).sendEcho) rfl on⟩, ?_⟩
  · exact ⟨s.sendControl, exec_eq_powered rfl on, sendControl_begins s, sendControl_frame s⟩
  · exact ⟨{ s with ingest := s.ingest.advance },
      exec_eq_powered (f := fun s => { s with ingest := s.ingest.advance }) rfl on, advance_begins s.ingest, rfl⟩
  · exact ⟨{ s with playout := s.playout.advance },
      exec_eq_powered (f := fun s => { s with playout := s.playout.advance }) rfl on, advance_begins s.playout, rfl⟩
  · intro t
    obtain ⟨port, reports, ingest, playout⟩ := startLanes_ports s
    refine ⟨fun idle => ?_, fun busy => ?_, fun idle => ?_, fun busy => ?_, fun idle => ?_, fun busy => ?_,
      fun p idle => ?_, fun p busy => ?_, startLanes_frame s⟩
    · have begins := sendControl_begins s
      rw [← startControl_idle idle, ← port, ← reports] at begins
      exact begins
    · exact ⟨port.trans (by rw [startControl_sending busy]), reports.trans (by rw [startControl_sending busy])⟩
    · exact ingest ▸ lane_start_begins idle
    · exact ingest.trans (lane_start_sending busy)
    · exact playout ▸ lane_start_begins idle
    · exact playout.trans (lane_start_sending busy)
    · exact (startLanes_panel s p).trans (startEcho_idle idle)
    · exact (startLanes_panel s p).trans (startEcho_sending busy)

/-! ## Reports raised -/

section raising

variable {s : State} {b : ReportBody} {on : Bool} {p : Nat}

theorem raise_disabled (setting : s.reports.settings[(classIndex b.cls).val] = ⟨false, p⟩) : s.raise b = s := by
  simp [State.raise, setting]

theorem raise_enabled (setting : s.reports.settings[(classIndex b.cls).val] = ⟨true, p⟩) :
    s.raise b = { s with reports := s.reports.hand ⟨b, s.time, p⟩ } := by
  simp [State.raise, setting]

end raising

section handing

variable {u : ReportUnit} {r : Report}

theorem hand_room (room : u.queue.length < 64) : u.hand r = { u with queue := u.queue ++ [r] } := if_pos room

theorem hand_displaces {pre post : List Report} {v : Report} (full : 64 ≤ u.queue.length)
    (queue : u.queue = pre ++ v :: post) (small : v.priority ≤ 3) (older : ∀ q ∈ pre, v.priority ≤ q.priority)
    (younger : ∀ q ∈ post, v.priority < q.priority) (higher : v.priority < r.priority) :
    u.hand r = { u.lose v.body.cls with queue := pre ++ post ++ [r] } := by
  obtain ⟨low, victim, rest⟩ := youngestOf_past small older younger
  rw [← queue] at low victim rest
  unfold ReportUnit.hand
  rw [if_neg (by omega)]
  simp only [low, if_pos higher, victim, rest]

theorem hand_lost {pre post : List Report} {v : Report} (full : 64 ≤ u.queue.length)
    (queue : u.queue = pre ++ v :: post) (small : v.priority ≤ 3) (older : ∀ q ∈ pre, v.priority ≤ q.priority)
    (younger : ∀ q ∈ post, v.priority < q.priority) (lower : r.priority ≤ v.priority) :
    u.hand r = u.lose r.body.cls := by
  obtain ⟨low, -, -⟩ := youngestOf_past small older younger
  rw [← queue] at low
  unfold ReportUnit.hand
  rw [if_neg (by omega)]
  simp only [low, if_neg (show ¬v.priority < r.priority by omega)]

end handing

/-- Settles O8. -/
theorem reportsAndFaultsRecorded : Obligations.ReportsAndFaultsRecorded := by
  refine ⟨fun s b on p setting => ⟨fun off => ?_, fun enabled room => ?_,
    fun pre v post enabled full queue small older younger => ⟨fun higher => ?_, fun lower => ?_⟩⟩, fun s k object => ?_⟩
  · subst off
    exact raise_disabled setting
  · subst enabled
    rw [raise_enabled setting, hand_room room]
  · subst enabled
    rw [raise_enabled setting, hand_displaces full queue small older younger higher]
    rfl
  · subst enabled
    rw [raise_enabled setting, hand_lost full queue small older younger lower]
    rfl
  · rw [recordFault_eq_record]
    exact ⟨rfl, rfl, rfl, rfl⟩

end Sys2Proof.Machine
end

section
/-! The checks of the command port (spec 10 R179; spec 11 R193): which bodies are read, by their length and by the
bytes that have listed values. -/

namespace Sys2Proof.Machine
open Sys2Proof

/-! ## Answers of the port -/

/-- The row answers its record with a status in its turn, and nothing else. -/
def AnswersOnly (i : Instr) (kind tag : Byte) (st : Status) : Prop :=
  ∀ s, exec i s = powered s fun s => s.turn i kind tag fun s => s.formReply kind tag st .empty false

theorem turnedAway_of_answersOnly {i : Instr} {kind tag : Byte} {st : Status} {u s : State}
    (answers : AnswersOnly i kind tag st) (taken : u.takes i s) : TurnedAway i kind tag u s st := by
  unfold TurnedAway Leaves
  rw [exec_eq_powered (answers u) taken.1, turn_takes taken]

section rows

variable {α : Type} {i : Instr} {k kind tag : Byte} {a : Sent α} {f : α → State → Verdict}

theorem answersOnly_badLength (row : ∀ s, exec i s = command i k tag a f s) (same : kind.toNat = k.toNat)
    (bad : a = .badLength) : AnswersOnly i kind tag .badLength := by
  obtain rfl : kind = k := BitVec.eq_of_toNat_eq same
  subst bad
  exact row

theorem answersOnly_badByte (row : ∀ s, exec i s = command i k tag a f s) (same : kind.toNat = k.toNat)
    (bad : a = .badByte) : AnswersOnly i kind tag .badValue := by
  obtain rfl : kind = k := BitVec.eq_of_toNat_eq same
  subst bad
  exact row

end rows

/-! ## Body lengths (log 9) -/

section readers

variable {body : List Byte}

@[simp] theorem emptyBody_badLength (wrong : body.length ≠ 0) : emptyBody body = .badLength := by
  unfold emptyBody; split; exacts [absurd rfl wrong, rfl]

@[simp] theorem byteBody_badLength (wrong : body.length ≠ 1) : byteBody body = .badLength := by
  unfold byteBody; split; exacts [absurd rfl wrong, rfl]

@[simp] theorem halfBody_badLength (wrong : body.length ≠ 2) : halfBody body = .badLength := by
  unfold halfBody; split; exacts [absurd rfl wrong, rfl]

@[simp] theorem configureTrainBody_badLength (wrong : body.length ≠ 6) : configureTrainBody body = .badLength := by
  unfold configureTrainBody; split; exacts [absurd rfl wrong, rfl]

@[simp] theorem timebaseBody_badLength (wrong : body.length ≠ 2) : timebaseBody body = .badLength := by
  unfold timebaseBody; split; exacts [absurd rfl wrong, rfl]

@[simp] theorem queryAnchorsBody_badLength (wrong : body.length ≠ 2) : queryAnchorsBody body = .badLength := by
  unfold queryAnchorsBody; split; exacts [absurd rfl wrong, rfl]

@[simp] theorem loadClipBody_badLength (wrong : body.length ≠ 5) : loadClipBody body = .badLength := by
  unfold loadClipBody; split; exacts [absurd rfl wrong, rfl]

@[simp] theorem channelTrainBody_badLength (wrong : body.length ≠ 2) : channelTrainBody body = .badLength := by
  unfold channelTrainBody; split; exacts [absurd rfl wrong, rfl]

@[simp] theorem playBody_badLength (wrong : body.length ≠ 6) : playBody body = .badLength := by
  unfold playBody; split; exacts [absurd rfl wrong, rfl]

@[simp] theorem channelWordBody_badLength (wrong : body.length ≠ 5) : channelWordBody body = .badLength := by
  unfold channelWordBody; split; exacts [absurd rfl wrong, rfl]

@[simp] theorem gotoBody_badLength (wrong : body.length ≠ 11) : gotoBody body = .badLength := by
  unfold gotoBody; split; exacts [absurd rfl wrong, rfl]

@[simp] theorem liveBody_badLength (wrong : body.length ≠ 6) : liveBody body = .badLength := by
  unfold liveBody; split; exacts [absurd rfl wrong, rfl]

@[simp] theorem setBlendBody_badLength (wrong : body.length ≠ 2) : setBlendBody body = .badLength := by
  unfold setBlendBody; split; exacts [absurd rfl wrong, rfl]

@[simp] theorem setEndActionBody_badLength (wrong : body.length ≠ 2) : setEndActionBody body = .badLength := by
  unfold setEndActionBody; split; exacts [absurd rfl wrong, rfl]

@[simp] theorem channelByteBody_badLength (wrong : body.length ≠ 2) : channelByteBody body = .badLength := by
  unfold channelByteBody; split; exacts [absurd rfl wrong, rfl]

@[simp] theorem bindBody_badLength (wrong : body.length ≠ 2) : bindBody body = .badLength := by
  unfold bindBody; split; exacts [absurd rfl wrong, rfl]

@[simp] theorem setSilenceBody_badLength (wrong : body.length ≠ 5) : setSilenceBody body = .badLength := by
  unfold setSilenceBody; split; exacts [absurd rfl wrong, rfl]

@[simp] theorem trimClipBody_badLength (wrong : body.length ≠ 11) : trimClipBody body = .badLength := by
  unfold trimClipBody; split; exacts [absurd rfl wrong, rfl]

@[simp] theorem rateBody_badLength (wrong : body.length ≠ 3) : rateBody body = .badLength := by
  unfold rateBody; split; exacts [absurd rfl wrong, rfl]

@[simp] theorem setClipPlayBody_badLength (wrong : body.length ≠ 19) : setClipPlayBody body = .badLength := by
  unfold setClipPlayBody; split; exacts [absurd rfl wrong, rfl]

@[simp] theorem listBankBody_badLength (wrong : body.length ≠ 2) : listBankBody body = .badLength := by
  unfold listBankBody; split; exacts [absurd rfl wrong, rfl]

@[simp] theorem queueAddBody_badLength (wrong : body.length ≠ 12) : queueAddBody body = .badLength := by
  unfold queueAddBody; split; exacts [absurd rfl wrong, rfl]

@[simp] theorem setAlarmBody_badLength (wrong : body.length ≠ 5) : setAlarmBody body = .badLength := by
  unfold setAlarmBody; split; exacts [absurd rfl wrong, rfl]

@[simp] theorem renameBody_badLength (wrong : body.length ≠ 19) : renameBody body = .badLength := by
  unfold renameBody
  split
  · exact if_neg fun same => wrong (by simp [same])
  · rfl

theorem queryStatusOf_badLength (tag : Byte) (wrong : body.length ≠ 2) :
    queryStatusOf tag body = .queryStatusSummary tag .badLength := by
  unfold queryStatusOf; split; exacts [absurd rfl wrong, rfl]

theorem resetOf_badLength (tag : Byte) (wrong : body.length ≠ 1) :
    resetOf tag body = .resetAll tag .badLength := by
  unfold resetOf; split; exacts [absurd rfl wrong, rfl]

end readers

/-! ## Kinds (Table 11-2) -/

section kinds

variable {kind : Byte} (tag : Byte) (body : List Byte)

/-- A kind that is no command kind is decoded to UNKNOWN_KIND, in whichever block of kinds it lies. -/
theorem decodeCommand_unknown (unknown : commandKind kind = false) :
    decodeCommand kind tag body = .unknownKind kind tag := by
  have outside := of_decide_eq_false unknown
  unfold decodeCommand trainCommand transportCommand operatorCommand clipCommand unitCommand
  split_ifs
  all_goals split
  any_goals rfl
  all_goals omega

theorem commandKind_of_fixedLength {n : Nat} (len : fixedLength kind.toNat = some n) : commandKind kind = true := by
  unfold fixedLength at len
  unfold commandKind
  split at len
  case h_56 => cases len
  all_goals
    rename_i same
    rw [same]
    rfl

theorem trainCommand_badLength {n : Nat} (high : kind.toNat < 0x20) (len : fixedLength kind.toNat = some n)
    (wrong : body.length ≠ n) : AnswersOnly (trainCommand kind tag body) kind tag .badLength := by
  have known := of_decide_eq_true (commandKind_of_fixedLength len)
  unfold trainCommand
  split
  case h_7 =>
    simp only [imp_false] at *
    omega
  all_goals
    rename_i same
    rw [same] at len
    cases len
  all_goals exact answersOnly_badLength (fun _ => rfl) same (by simp [wrong])

theorem transportCommand_badLength {n : Nat} (high : kind.toNat < 0x30) (low : ¬kind.toNat < 0x20) (len : fixedLength kind.toNat = some n)
    (wrong : body.length ≠ n) : AnswersOnly (transportCommand kind tag body) kind tag .badLength := by
  have known := of_decide_eq_true (commandKind_of_fixedLength len)
  unfold transportCommand
  split
  case h_14 =>
    simp only [imp_false] at *
    omega
  all_goals
    rename_i same
    rw [same] at len
    cases len
  all_goals exact answersOnly_badLength (fun _ => rfl) same (by simp [wrong])

theorem operatorCommand_badLength {n : Nat} (high : kind.toNat < 0x48) (low : ¬kind.toNat < 0x30) (len : fixedLength kind.toNat = some n)
    (wrong : body.length ≠ n) : AnswersOnly (operatorCommand kind tag body) kind tag .badLength := by
  have known := of_decide_eq_true (commandKind_of_fixedLength len)
  unfold operatorCommand
  split
  case h_13 =>
    simp only [imp_false] at *
    omega
  all_goals
    rename_i same
    rw [same] at len
    cases len
  all_goals exact answersOnly_badLength (fun _ => rfl) same (by simp [wrong])

theorem clipCommand_badLength {n : Nat} (high : kind.toNat < 0x58) (low : ¬kind.toNat < 0x48) (len : fixedLength kind.toNat = some n)
    (wrong : body.length ≠ n) : AnswersOnly (clipCommand kind tag body) kind tag .badLength := by
  have known := of_decide_eq_true (commandKind_of_fixedLength len)
  unfold clipCommand
  split
  case h_14 =>
    simp only [imp_false] at *
    omega
  all_goals
    rename_i same
    rw [same] at len
    cases len
  all_goals exact answersOnly_badLength (fun _ => rfl) same (by simp [wrong])

theorem unitCommand_badLength {n : Nat} (low : ¬kind.toNat < 0x58) (len : fixedLength kind.toNat = some n)
    (wrong : body.length ≠ n) : AnswersOnly (unitCommand kind tag body) kind tag .badLength := by
  have known := of_decide_eq_true (commandKind_of_fixedLength len)
  unfold unitCommand
  split
  case h_15 =>
    simp only [imp_false] at *
    omega
  all_goals
    rename_i same
    rw [same] at len
    cases len
  case h_10 =>
    rw [queryStatusOf_badLength tag wrong]
    exact answersOnly_badLength (f := querySummary) (fun _ => rfl) same rfl
  case h_14 =>
    rw [resetOf_badLength tag wrong]
    exact answersOnly_badLength (f := resetAll) (fun _ => rfl) same rfl
  all_goals exact answersOnly_badLength (fun _ => rfl) same (by simp [wrong])

/-- A body whose length is not that of its kind is answered BAD_LENGTH (R193). -/
theorem decodeCommand_badLength {n : Nat} (len : fixedLength kind.toNat = some n) (wrong : body.length ≠ n) :
    AnswersOnly (decodeCommand kind tag body) kind tag .badLength := by
  unfold decodeCommand
  split
  · exact trainCommand_badLength tag body ‹_› len wrong
  split
  · exact transportCommand_badLength tag body ‹_› ‹_› len wrong
  split
  · exact operatorCommand_badLength tag body ‹_› ‹_› len wrong
  split
  · exact clipCommand_badLength tag body ‹_› ‹_› len wrong
  · exact unitCommand_badLength tag body ‹_› len wrong

end kinds

end Sys2Proof.Machine
end

section
/-! The bytes with listed values (spec 11 R193, Table 11-4): which byte of a body is answered BAD_VALUE, and the
settling of what the port checks. -/

namespace Sys2Proof.Machine
open Sys2Proof

/-! ## Lists whose length does not match their count (R193) -/

section counted

variable {body : List Byte}

theorem angleGroupBody_badLength (wrong : body.length ≠ 2 + 1 * (body.getD 1 0).toNat) :
    angleGroupBody body = .badLength := by
  unfold angleGroupBody
  split
  · rename_i c n items
    refine if_neg fun same => wrong ?_
    simp only [List.length_cons, List.getD_cons_succ, List.getD_cons_zero]
    omega
  · rfl

theorem setCurveBody_badLength (wrong : body.length ≠ 2 + 6 * (body.getD 1 0).toNat) :
    setCurveBody body = .badLength := by
  unfold setCurveBody
  split
  · rename_i p n items
    refine if_neg fun same => wrong ?_
    simp only [List.length_cons, List.getD_cons_succ, List.getD_cons_zero]
    omega
  · rfl

theorem setReportsBody_badLength (wrong : body.length ≠ 1 + 3 * (body.getD 0 0).toNat) :
    setReportsBody body = .badLength := by
  unfold setReportsBody
  split
  · rename_i n items
    refine if_neg fun same => wrong ?_
    simp only [List.length_cons, List.getD_cons_zero]
    omega
  · rfl

end counted

/-! ## Bytes outside their listed values -/

section values

variable {b : Byte}

theorem flagOf_outside (high : 2 ≤ b.toNat) : flagOf b = none := by
  have apart : ∀ c : Byte, c.toNat < 2 → b ≠ c := by
    rintro c low rfl
    omega
  unfold flagOf
  rw [if_neg (apart 0 (by decide)), if_neg (apart 1 (by decide))]

theorem optionalOf_outside {α : Type} (a : α) (high : 2 ≤ b.toNat) : optionalOf b a = none := by
  simp [optionalOf, flagOf_outside high]

theorem endActionOf_outside (high : 4 ≤ b.toNat) : endActionOf b = none := by
  unfold endActionOf
  split
  case h_5 => rfl
  all_goals omega

theorem reportClassOf_outside (high : 6 ≤ b.toNat) : reportClassOf b = none := by
  unfold reportClassOf
  split
  case h_7 => rfl
  all_goals omega

theorem partOf_mode {α : Type} (a : Option α) (high : 3 ≤ b.toNat) : partOf b a = none := by
  cases a with
  | none => rfl
  | some v =>
    simp only [partOf, Option.bind_some]
    split
    case h_4 => rfl
    all_goals omega

theorem partOf_value {α : Type} : partOf b (none : Option α) = none := rfl

end values

section bodies

variable {body : List Byte}

theorem timebaseBody_badByte (len : body.length = 2) (bad : 2 ≤ (body.getD 1 0).toNat) :
    timebaseBody body = .badByte := by
  match body, len with
  | [r, m], _ => simp [timebaseBody, flagOf_outside (b := m) bad, Sent.ofOption]

theorem loadClipBody_badByte (len : body.length = 5) (bad : 2 ≤ (body.getD 3 0).toNat) :
    loadClipBody body = .badByte := by
  match body, len with
  | [c, i1, i2, p, a], _ => simp [loadClipBody, optionalOf_outside (b := p) _ bad, Sent.ofOption]

theorem playBody_badByte (len : body.length = 6) (bad : 2 ≤ (body.getD 1 0).toNat) : playBody body = .badByte := by
  match body, len with
  | [c, p, v1, v2, v3, v4], _ => simp [playBody, optionalOf_outside (b := p) _ bad, Sent.ofOption]

theorem gotoBody_badByte (len : body.length = 11) (bad : 2 ≤ (body.getD 1 0).toNat) : gotoBody body = .badByte := by
  match body, len with
  | [c, p, n1, n2, n3, n4, hh, mm, ss, ff, ph], _ =>
    simp [gotoBody, optionalOf_outside (b := p) _ bad, Sent.ofOption]

theorem liveBody_badByte (len : body.length = 6) (bad : 2 ≤ (body.getD 1 0).toNat) : liveBody body = .badByte := by
  match body, len with
  | [c, p, d1, d2, d3, d4], _ => simp [liveBody, optionalOf_outside (b := p) _ bad, Sent.ofOption]

theorem setBlendBody_badByte (len : body.length = 2) (bad : 2 ≤ (body.getD 1 0).toNat) :
    setBlendBody body = .badByte := by
  match body, len with
  | [c, b], _ => simp [setBlendBody, flagOf_outside (b := b) bad, Sent.ofOption]

theorem setEndActionBody_badByte (len : body.length = 2) (bad : 4 ≤ (body.getD 1 0).toNat) :
    setEndActionBody body = .badByte := by
  match body, len with
  | [c, b], _ => simp [setEndActionBody, endActionOf_outside (b := b) bad, Sent.ofOption]

theorem renameBody_badByte (len : body.length = 19) (bad : 17 ≤ (body.getD 2 0).toNat) :
    renameBody body = .badByte := by
  match body, len with
  | i1 :: i2 :: n :: chars, len =>
    have high : 17 ≤ n.toNat := bad
    have full : chars.length = 16 := by simpa using len
    simp only [renameBody, if_pos full, if_neg (show ¬n.toNat ≤ 16 by omega)]

/-- A mode byte of SET_CLIP_PLAY outside its values, or an end action in any mode (R193, log 10). -/
theorem setClipPlayBody_badByte (len : body.length = 19)
    (bad : 3 ≤ (body.getD 2 0).toNat ∨ 4 ≤ (body.getD 3 0).toNat ∨ 3 ≤ (body.getD 4 0).toNat ∨
      3 ≤ (body.getD 9 0).toNat) : setClipPlayBody body = .badByte := by
  match body, len with
  | [i1, i2, m1, e, m2, s1, s2, s3, s4, m3, f1, f2, f3, f4, r1, r2, r3, r4, n], _ =>
    obtain mode | action | mode | mode := bad
    · simp [setClipPlayBody, partOf_mode (b := m1) _ mode]
    · simp [setClipPlayBody, endActionOf_outside (b := e) action, partOf_value]
    · simp [setClipPlayBody, partOf_mode (b := m2) _ mode]
    · simp [setClipPlayBody, partOf_mode (b := m3) _ mode]

/-- A presence byte of QUEUE_ADD outside its values (R193). -/
theorem queueAddBody_badByte (len : body.length = 12)
    (bad : 2 ≤ (body.getD 3 0).toNat ∨ 2 ≤ (body.getD 5 0).toNat ∨ 2 ≤ (body.getD 10 0).toNat) :
    queueAddBody body = .badByte := by
  match body, len with
  | [c, i1, i2, pa, a, pv, v1, v2, v3, v4, pp, n], _ =>
    obtain angle | speed | position := bad
    · simp [queueAddBody, optionalOf_outside (b := pa) _ angle]
    · simp [queueAddBody, optionalOf_outside (b := pv) _ speed]
    · simp [queueAddBody, optionalOf_outside (b := pp) _ position]

theorem queryStatusOf_badByte (tag : Byte) (len : body.length = 2) (bad : 4 ≤ (body.getD 0 0).toNat) :
    queryStatusOf tag body = .queryStatusSummary tag .badByte := by
  match body, len with
  | [part, start], _ =>
    have high : 4 ≤ part.toNat := bad
    unfold queryStatusOf
    dsimp only
    split
    case h_5 => rfl
    all_goals omega

theorem resetOf_badByte (tag : Byte) (len : body.length = 1) (bad : 2 ≤ (body.getD 0 0).toNat) :
    resetOf tag body = .resetAll tag .badByte := by
  match body, len with
  | [scope], _ =>
    have high : 2 ≤ scope.toNat := bad
    unfold resetOf
    dsimp only
    split
    case h_3 => rfl
    all_goals omega

end bodies

/-- Class settings with a class or an enable outside its values at any place of the list (R193). -/
theorem reportItems_outside {cls on priority : Byte} {more : List Byte} (bad : 6 ≤ cls.toNat ∨ 2 ≤ on.toNat) :
    ∀ before : List Byte, before.length % 3 = 0 → reportItems (before ++ cls :: on :: priority :: more) = none
  | [], _ => by
    unfold reportItems
    obtain noClass | noFlag := bad
    · simp [reportClassOf_outside noClass]
    · simp [flagOf_outside noFlag]
  | [_], len => by simp at len
  | [_, _], len => by simp at len
  | a :: b :: c :: before, len => by
    have rest := reportItems_outside bad before (priority := priority) (more := more) (by simp at len; omega)
    rw [List.cons_append, List.cons_append, List.cons_append, reportItems, rest]
    split <;> simp_all

theorem setReportsBody_badByte {n cls on priority : Byte} {before more : List Byte} (whole : before.length % 3 = 0)
    (len : (before ++ cls :: on :: priority :: more).length = 3 * n.toNat) (bad : 6 ≤ cls.toNat ∨ 2 ≤ on.toNat) :
    setReportsBody (n :: (before ++ cls :: on :: priority :: more)) = .badByte := by
  unfold setReportsBody
  dsimp only
  rw [if_pos len, reportItems_outside bad before whole]
  rfl

/-! ## The checks of the port -/

/-- A list whose length does not match its count is answered BAD_LENGTH (R193, log 27). -/
theorem decodeCommand_badCount (tag : Byte) {kind : Byte} {body : List Byte} {fixed size : Nat}
    (listed : (kind, fixed, size) ∈ [((0x2C : Byte), 2, 1), (0x39, 2, 6), (0x60, 1, 3)])
    (wrong : body.length ≠ fixed + size * (body.getD (fixed - 1) 0).toNat) :
    AnswersOnly (decodeCommand kind tag body) kind tag .badLength := by
  simp only [List.mem_cons, Prod.mk.injEq, List.not_mem_nil, or_false] at listed
  obtain ⟨rfl, rfl, rfl⟩ | ⟨rfl, rfl, rfl⟩ | ⟨rfl, rfl, rfl⟩ := listed
  · exact answersOnly_badLength (fun _ => rfl) rfl (angleGroupBody_badLength wrong)
  · exact answersOnly_badLength (fun _ => rfl) rfl (setCurveBody_badLength wrong)
  · exact answersOnly_badLength (fun _ => rfl) rfl (setReportsBody_badLength wrong)

/-- A byte outside its listed values is answered BAD_VALUE (R193, log 12). -/
theorem decodeCommand_badByte (tag : Byte) {kind : Byte} {body : List Byte} {place values : Nat}
    (listed : (kind, place, values) ∈ [((0x14 : Byte), 1, 2), (0x20, 3, 2), (0x23, 1, 2), (0x26, 1, 2), (0x27, 1, 2),
      (0x29, 1, 2), (0x2A, 1, 4), (0x50, 2, 17), (0x52, 2, 3), (0x52, 3, 4), (0x52, 4, 3), (0x52, 9, 3),
      (0x58, 3, 2), (0x58, 5, 2), (0x58, 10, 2), (0x61, 0, 4), (0x65, 0, 2)])
    (len : fixedLength kind.toNat = some body.length) (bad : values ≤ (body.getD place 0).toNat) :
    AnswersOnly (decodeCommand kind tag body) kind tag .badValue := by
  have size : ∀ {n : Nat}, fixedLength kind.toNat = some n → body.length = n := fun known =>
    Option.some.inj (len.symm.trans known)
  simp only [List.mem_cons, Prod.mk.injEq, List.not_mem_nil, or_false] at listed
  obtain ⟨rfl, rfl, rfl⟩ | ⟨rfl, rfl, rfl⟩ | ⟨rfl, rfl, rfl⟩ | ⟨rfl, rfl, rfl⟩ | ⟨rfl, rfl, rfl⟩ | ⟨rfl, rfl, rfl⟩ |
    ⟨rfl, rfl, rfl⟩ | ⟨rfl, rfl, rfl⟩ | ⟨rfl, rfl, rfl⟩ | ⟨rfl, rfl, rfl⟩ | ⟨rfl, rfl, rfl⟩ | ⟨rfl, rfl, rfl⟩ |
    ⟨rfl, rfl, rfl⟩ | ⟨rfl, rfl, rfl⟩ | ⟨rfl, rfl, rfl⟩ | ⟨rfl, rfl, rfl⟩ | ⟨rfl, rfl, rfl⟩ := listed
  · exact answersOnly_badByte (fun _ => rfl) rfl (timebaseBody_badByte (size rfl) bad)
  · exact answersOnly_badByte (fun _ => rfl) rfl (loadClipBody_badByte (size rfl) bad)
  · exact answersOnly_badByte (fun _ => rfl) rfl (playBody_badByte (size rfl) bad)
  · exact answersOnly_badByte (fun _ => rfl) rfl (gotoBody_badByte (size rfl) bad)
  · exact answersOnly_badByte (fun _ => rfl) rfl (liveBody_badByte (size rfl) bad)
  · exact answersOnly_badByte (fun _ => rfl) rfl (setBlendBody_badByte (size rfl) bad)
  · exact answersOnly_badByte (fun _ => rfl) rfl (setEndActionBody_badByte (size rfl) bad)
  · exact answersOnly_badByte (fun _ => rfl) rfl (renameBody_badByte (size rfl) bad)
  · exact answersOnly_badByte (fun _ => rfl) rfl (setClipPlayBody_badByte (size rfl) (.inl bad))
  · exact answersOnly_badByte (fun _ => rfl) rfl (setClipPlayBody_badByte (size rfl) (.inr (.inl bad)))
  · exact answersOnly_badByte (fun _ => rfl) rfl (setClipPlayBody_badByte (size rfl) (.inr (.inr (.inl bad))))
  · exact answersOnly_badByte (fun _ => rfl) rfl (setClipPlayBody_badByte (size rfl) (.inr (.inr (.inr bad))))
  · exact answersOnly_badByte (fun _ => rfl) rfl (queueAddBody_badByte (size rfl) (.inl bad))
  · exact answersOnly_badByte (fun _ => rfl) rfl (queueAddBody_badByte (size rfl) (.inr (.inl bad)))
  · exact answersOnly_badByte (fun _ => rfl) rfl (queueAddBody_badByte (size rfl) (.inr (.inr bad)))
  · rw [show decodeCommand 0x61 tag body = queryStatusOf tag body from rfl, queryStatusOf_badByte tag (size rfl) bad]
    exact answersOnly_badByte (f := querySummary) (fun _ => rfl) rfl rfl
  · rw [show decodeCommand 0x65 tag body = resetOf tag body from rfl, resetOf_badByte tag (size rfl) bad]
    exact answersOnly_badByte (f := resetAll) (fun _ => rfl) rfl rfl

/-- Settles O6. -/
theorem kindAndLengthChecked : Obligations.KindAndLengthChecked := by
  refine ⟨fun kind tag u s taken => turnedAway_of_answersOnly (fun _ => rfl) taken,
    fun kind tag body unknown => decodeCommand_unknown tag body unknown,
    fun kind tag body n u s len wrong taken =>
      turnedAway_of_answersOnly (decodeCommand_badLength tag body len wrong) taken,
    fun kind tag body fixed size u s listed wrong taken =>
      turnedAway_of_answersOnly (decodeCommand_badCount tag listed wrong) taken,
    fun kind tag body place values u s listed len bad taken =>
      turnedAway_of_answersOnly (decodeCommand_badByte tag listed len bad) taken, ?_⟩
  intro tag n before after cls on priority u s whole len bad body taken
  exact turnedAway_of_answersOnly (answersOnly_badByte (fun _ => rfl) rfl (setReportsBody_badByte whole len bad)) taken

end Sys2Proof.Machine
end

section
/-! The channel check and the gang check of the channel commands, over the whole list of them (spec 04 R71; spec 08
R158; spec 09 R165 to R170). -/

namespace Sys2Proof.Machine
open Sys2Proof

/-! ## A channel field that names none of A to F -/

section unnamed

variable {b : Byte} (high : 6 ≤ b.toNat) (s : State)
include high

theorem queueClear_unnamed : queueClear b s = .refuse .badValue := by
  unfold queueClear
  rw [channelOf_eq_none high]

theorem queueStart_unnamed : queueStart b s = .refuse .badValue := by
  unfold queueStart
  rw [channelOf_eq_none high]

theorem queueNext_unnamed : queueNext b s = .refuse .badValue := by
  unfold queueNext
  rw [channelOf_eq_none high]

theorem queueAdd_unnamed (id : Half) (o p : Option Byte) (v : Option Word) :
    queueAdd ⟨b, id, o, v, p⟩ s = .refuse .badValue := by
  unfold queueAdd
  rw [channelOf_eq_none high]

theorem queueRemove_unnamed (v : Byte) : queueRemove ⟨b, v⟩ s = .refuse .badValue := by
  unfold queueRemove
  rw [channelOf_eq_none high]

theorem queryQueue_unnamed (v : Byte) : queryQueue ⟨b, v⟩ s = .refuse .badValue := by
  unfold queryQueue
  rw [channelOf_eq_none high]

end unnamed

/-! ## A channel in FOLLOWING -/

section ganged

variable {b : Byte} {c : ChannelId} {s : State} (named : b.toNat = c.val)
  (follows : (s.channel c).state = .following)
include named follows

/-- The gang check refuses what a channel command does on a channel in FOLLOWING. -/
theorem onChannel_following {f : ChannelId → State → Verdict} (g : State → Verdict) (checked : f c s = ungangedOn c g s) :
    onChannel b f s = .refuse .ganged :=
  (onChannel_of_named named f s).trans (checked.trans (ungangedOn_following g follows))

theorem loadClip_following {id : Half} {o : Option Byte} (idLow : id.toNat < 1024)
    (angleLow : ∀ g, o = some g → g.toNat < 8) : loadClip ⟨b, id, o⟩ s = .refuse .ganged := by
  refine onChannel_following named follows (loadClipOn c id.toNat (o.map (·.toNat))) ?_
  dsimp only
  rw [clipIdOf_eq_some idLow, optAngleIndexOf_eq_some angleLow]

theorem selectTrain_following {x : Byte} (low : x.toNat < 16) : selectTrain ⟨b, x⟩ s = .refuse .ganged := by
  refine onChannel_following named follows (selectTrainOn c ⟨x.toNat, low⟩) ?_
  dsimp only
  rw [trainOf_eq_some (x := ⟨x.toNat, low⟩) rfl]

theorem goto_serial_following (n : Word) : goto ⟨b, some n, none⟩ s = .refuse .ganged :=
  onChannel_following named follows (gotoOn c (some n) none) rfl

theorem goto_timecode_following {f : TimecodeField} (valid : s.timebase.labelValid (labelOf f) = true) :
    goto ⟨b, none, some f⟩ s = .refuse .ganged :=
  onChannel_following named follows (gotoOn c none (some f)) (if_pos valid)

theorem live_following {d : Option Word} (low : ∀ g, d = some g → g.toNat ≤ 1000) :
    live ⟨b, d⟩ s = .refuse .ganged := by
  cases d with
  | none => exact onChannel_following named follows (liveOn c none .command) rfl
  | some w =>
    exact onChannel_following named follows (liveOn c (some w.toNat) .command)
      (if_neg (Nat.not_lt.mpr (low w rfl)))

theorem angle_following {v : Byte} (low : v.toNat < 8) : angle ⟨b, v⟩ s = .refuse .ganged := by
  refine onChannel_following named follows (angleOn c v.toNat) ?_
  dsimp only
  rw [angleIndexOf_eq_some low]

theorem queueStart_following : queueStart b s = .refuse .ganged := by
  unfold queueStart
  rw [channelOf_eq_some named]
  exact if_pos follows

theorem queueNext_following : queueNext b s = .refuse .ganged := by
  unfold queueNext
  rw [channelOf_eq_some named]
  exact if_pos follows

end ganged

/-! ## The checks -/

/-- The commands whose body is a channel alone. -/
theorem byteCommand_unnamed {tag b kind : Byte} {u s : State} {i : Instr} (taken : u.takes i s) (high : 6 ≤ b.toNat)
    (listed : (i, kind) ∈ [(Instr.unload tag (.fields b), (0x22 : Byte)), (.pause tag (.fields b), 0x25),
      (.angleNext tag (.fields b), 0x31), (.ungang tag (.fields b), 0x33), (.markIn tag (.fields b), 0x40),
      (.markOut tag (.fields b), 0x41), (.clearMarks tag (.fields b), 0x42), (.take tag (.fields b), 0x43),
      (.queueClear tag (.fields b), 0x5A), (.queueStart tag (.fields b), 0x5C),
      (.queueNext tag (.fields b), 0x5D)]) : TurnedAway i kind tag u s .badValue := by
  simp only [List.mem_cons, Prod.mk.injEq, List.not_mem_nil, or_false] at listed
  obtain ⟨rfl, rfl⟩ | ⟨rfl, rfl⟩ | ⟨rfl, rfl⟩ | ⟨rfl, rfl⟩ | ⟨rfl, rfl⟩ | ⟨rfl, rfl⟩ | ⟨rfl, rfl⟩ | ⟨rfl, rfl⟩ |
    ⟨rfl, rfl⟩ | ⟨rfl, rfl⟩ | ⟨rfl, rfl⟩ := listed
  · exact turnedAway_of_refuse (f := unload) rfl taken (onChannel_of_unnamed high _ s)
  · exact turnedAway_of_refuse (f := pause) rfl taken (onChannel_of_unnamed high _ s)
  · exact turnedAway_of_refuse (f := angleNext) rfl taken (onChannel_of_unnamed high _ s)
  · exact turnedAway_of_refuse (f := ungang) rfl taken (onChannel_of_unnamed high _ s)
  · exact turnedAway_of_refuse (f := markIn) rfl taken (onChannel_of_unnamed high _ s)
  · exact turnedAway_of_refuse (f := markOut) rfl taken (onChannel_of_unnamed high _ s)
  · exact turnedAway_of_refuse (f := clearMarks) rfl taken (onChannel_of_unnamed high _ s)
  · exact turnedAway_of_refuse (f := take) rfl taken (onChannel_of_unnamed high _ s)
  · exact turnedAway_of_refuse (f := queueClear) rfl taken (queueClear_unnamed high s)
  · exact turnedAway_of_refuse (f := queueStart) rfl taken (queueStart_unnamed high s)
  · exact turnedAway_of_refuse (f := queueNext) rfl taken (queueNext_unnamed high s)

/-- The commands whose body holds more than a channel. -/
theorem fieldsCommand_unnamed {tag b kind v : Byte} {id : Half} {w : Word} {o p : Option Byte} {ow : Option Word}
    {tc : Option TimecodeField} {bl : Bool} {ea : EndAction} {l : List Byte} {u s : State} {i : Instr}
    (taken : u.takes i s) (high : 6 ≤ b.toNat)
    (listed : (i, kind) ∈ [(Instr.loadClip tag (.fields ⟨b, id, o⟩), (0x20 : Byte)),
      (.selectTrain tag (.fields ⟨b, v⟩), 0x21),
      (.play tag (.fields ⟨b, ow⟩), 0x23), (.setSpeed tag (.fields ⟨b, w⟩), 0x24),
      (.goto tag (.fields ⟨b, ow, tc⟩), 0x26), (.live tag (.fields ⟨b, ow⟩), 0x27),
      (.setAccel tag (.fields ⟨b, w⟩), 0x28), (.setBlend tag (.fields ⟨b, bl⟩), 0x29),
      (.setEndAction tag (.fields ⟨b, ea⟩), 0x2A), (.setTargetBank tag (.fields ⟨b, v⟩), 0x2B),
      (.setAngleGroup tag (.fields ⟨b, l⟩), 0x2C), (.angle tag (.fields ⟨b, v⟩), 0x30),
      (.gang tag (.fields ⟨b, v⟩), 0x32), (.queueAdd tag (.fields ⟨b, id, o, ow, p⟩), 0x58),
      (.queueRemove tag (.fields ⟨b, v⟩), 0x59), (.queryQueue tag (.fields ⟨b, v⟩), 0x5B)]) :
    TurnedAway i kind tag u s .badValue := by
  simp only [List.mem_cons, Prod.mk.injEq, List.not_mem_nil, or_false] at listed
  obtain ⟨rfl, rfl⟩ | ⟨rfl, rfl⟩ | ⟨rfl, rfl⟩ | ⟨rfl, rfl⟩ | ⟨rfl, rfl⟩ | ⟨rfl, rfl⟩ | ⟨rfl, rfl⟩ | ⟨rfl, rfl⟩ |
    ⟨rfl, rfl⟩ | ⟨rfl, rfl⟩ | ⟨rfl, rfl⟩ | ⟨rfl, rfl⟩ | ⟨rfl, rfl⟩ | ⟨rfl, rfl⟩ | ⟨rfl, rfl⟩ | ⟨rfl, rfl⟩ := listed
  · exact turnedAway_of_refuse (f := loadClip) rfl taken (onChannel_of_unnamed high _ s)
  · exact turnedAway_of_refuse (f := selectTrain) rfl taken (onChannel_of_unnamed high _ s)
  · exact turnedAway_of_refuse (f := play) rfl taken (onChannel_of_unnamed high _ s)
  · exact turnedAway_of_refuse (f := setSpeed) rfl taken (onChannel_of_unnamed high _ s)
  · exact turnedAway_of_refuse (f := goto) rfl taken (onChannel_of_unnamed high _ s)
  · exact turnedAway_of_refuse (f := live) rfl taken (onChannel_of_unnamed high _ s)
  · exact turnedAway_of_refuse (f := setAccel) rfl taken (onChannel_of_unnamed high _ s)
  · exact turnedAway_of_refuse (f := setBlend) rfl taken (onChannel_of_unnamed high _ s)
  · exact turnedAway_of_refuse (f := setEndAction) rfl taken (onChannel_of_unnamed high _ s)
  · exact turnedAway_of_refuse (f := setTargetBank) rfl taken (onChannel_of_unnamed high _ s)
  · exact turnedAway_of_refuse (f := setAngleGroup) rfl taken (onChannel_of_unnamed high _ s)
  · exact turnedAway_of_refuse (f := angle) rfl taken (onChannel_of_unnamed high _ s)
  · exact turnedAway_of_refuse (f := gang) rfl taken (onChannel_of_unnamed high _ s)
  · exact turnedAway_of_refuse (f := queueAdd) rfl taken (queueAdd_unnamed high s id o p ow)
  · exact turnedAway_of_refuse (f := queueRemove) rfl taken (queueRemove_unnamed high s v)
  · exact turnedAway_of_refuse (f := queryQueue) rfl taken (queryQueue_unnamed high s v)

/-- Settles O23. -/
theorem channelChecks : Obligations.ChannelChecks := by
  refine ⟨fun tag u s i kind b taken high listed => byteCommand_unnamed taken high listed,
    fun tag u s i kind b v id w o p ow tc bl ea l taken high listed => fieldsCommand_unnamed taken high listed, ?_⟩
  intro tag c u s i kind b x v id w n o ow d f taken named follows valid xLow vLow idLow oLow dLow listed
  simp only [List.mem_cons, Prod.mk.injEq, List.not_mem_nil, or_false] at listed
  obtain ⟨rfl, rfl⟩ | ⟨rfl, rfl⟩ | ⟨rfl, rfl⟩ | ⟨rfl, rfl⟩ | ⟨rfl, rfl⟩ | ⟨rfl, rfl⟩ | ⟨rfl, rfl⟩ | ⟨rfl, rfl⟩ |
    ⟨rfl, rfl⟩ | ⟨rfl, rfl⟩ | ⟨rfl, rfl⟩ | ⟨rfl, rfl⟩ | ⟨rfl, rfl⟩ := listed
  · exact turnedAway_of_refuse (f := loadClip) rfl taken (loadClip_following named follows idLow oLow)
  · exact turnedAway_of_refuse (f := selectTrain) rfl taken (selectTrain_following named follows xLow)
  · exact turnedAway_of_refuse (f := unload) rfl taken (onChannel_following named follows _ rfl)
  · exact turnedAway_of_refuse (f := play) rfl taken (onChannel_following named follows _ rfl)
  · exact turnedAway_of_refuse (f := setSpeed) rfl taken (onChannel_following named follows _ rfl)
  · exact turnedAway_of_refuse (f := pause) rfl taken (onChannel_following named follows _ rfl)
  · exact turnedAway_of_refuse (f := goto) rfl taken (goto_serial_following named follows n)
  · exact turnedAway_of_refuse (f := goto) rfl taken (goto_timecode_following named follows valid)
  · exact turnedAway_of_refuse (f := live) rfl taken (live_following named follows dLow)
  · exact turnedAway_of_refuse (f := angle) rfl taken (angle_following named follows vLow)
  · exact turnedAway_of_refuse (f := angleNext) rfl taken (onChannel_following named follows _ rfl)
  · exact turnedAway_of_refuse (f := queueStart) rfl taken (queueStart_following named follows)
  · exact turnedAway_of_refuse (f := queueNext) rfl taken (queueNext_following named follows)

end Sys2Proof.Machine
end

section
/-! Link framing (spec 11 R191): what the receivers make of each byte, of a timeout and of a whole frame, from what an
examination of a run of bytes comes to. -/

namespace Sys2Proof.Machine
open Sys2Proof

/-! ## Every run of bytes is examined -/

/-- A frame by its bytes: the length and the CRC of what it holds determine them (Table 11-1). -/
theorem frame_eq {l1 l2 kind tag hi lo : Byte} {body : List Byte} (short : body.length ≤ 250)
    (len : body.length + 2 = l1.toNat * 256 + l2.toNat) (crc : crc16 (l1 :: l2 :: kind :: tag :: body) = hi ++ lo) :
    frame kind tag body = 0xC5 :: l1 :: l2 :: (kind :: tag :: body ++ [hi, lo]) := by
  obtain ⟨m1, m2, high, low, bytes, size, sum⟩ := frame_bytes kind tag body short
  have halves : ∀ {a b c d : Byte}, a.toNat * 256 + b.toNat = c.toNat * 256 + d.toNat → a = c ∧ b = d := by
    intro a b c d same
    have := b.isLt
    have := d.isLt
    exact ⟨BitVec.eq_of_toNat_eq (by omega), BitVec.eq_of_toNat_eq (by omega)⟩
  obtain ⟨rfl, rfl⟩ := halves (size.symm.trans len)
  have same : high ++ low = hi ++ lo := sum.symm.trans crc
  obtain ⟨rfl, rfl⟩ := halves ((half_toNat high low).symm.trans ((congrArg BitVec.toNat same).trans (half_toNat hi lo)))
  exact bytes

/-- An attempt whose bytes have all arrived is a record or fails its CRC, and the search goes on behind it (R191). -/
theorem examined_whole {pre more : List Byte} {l1 l2 : Byte} (passed : (0xC5 : Byte) ∉ pre)
    (low : 2 ≤ l1.toNat * 256 + l2.toNat) (high : l1.toNat * 256 + l2.toNat ≤ 252)
    (full : l1.toNat * 256 + l2.toNat + 2 ≤ more.length)
    (rest : ∀ bs : List Byte, bs.length < more.length + 3 → ∃ records st held, Examined bs records st held) :
    ∃ records st held, Examined (pre ++ 0xC5 :: l1 :: l2 :: more) records st held := by
  obtain ⟨content, hi, lo, tail, rfl, size⟩ : ∃ content hi lo tail, more = content ++ hi :: lo :: tail ∧
      content.length = l1.toNat * 256 + l2.toNat := by
    refine ⟨more.take (l1.toNat * 256 + l2.toNat), ?_⟩
    match parts : more.drop (l1.toNat * 256 + l2.toNat) with
    | [] => simp [List.drop_eq_nil_iff] at parts; omega
    | [_] =>
      have := congrArg List.length parts
      simp at this
      omega
    | hi :: lo :: tail =>
      exact ⟨hi, lo, tail, by rw [← parts, List.take_append_drop], by rw [List.length_take]; omega⟩
  by_cases crc : crc16 (l1 :: l2 :: content) = hi ++ lo
  · match content, size with
    | [], size => simp at size; omega
    | [_], size => simp at size; omega
    | kind :: tag :: body, size =>
      rw [List.length_cons, List.length_cons] at size
      obtain ⟨records, st, held, examined⟩ := rest tail (by simp; omega)
      have bytes := frame_eq (by omega) size crc
      refine ⟨⟨kind, tag, body⟩ :: records, st, held, ?_⟩
      have whole := Examined.taken (kind := kind) (tag := tag) (body := body) passed (by omega) examined
      rw [bytes] at whole
      simpa using whole
  · obtain ⟨records, st, held, examined⟩ := rest (l1 :: l2 :: (content ++ hi :: lo :: tail)) (by simp)
    exact ⟨records, st, held, .badCrc passed (by omega) (by omega) size crc examined⟩

/-- An examination of any run of bytes comes to an end (R191). -/
theorem examined_exists (bs : List Byte) : ∃ records st held, Examined bs records st held := by
  induction size : bs.length using Nat.strong_induction_on generalizing bs with
  | _ n ih =>
  subst size
  by_cases start : (0xC5 : Byte) ∈ bs
  · obtain ⟨pre, post, rfl, passed⟩ := List.eq_append_cons_of_mem start
    match post with
    | [] => exact ⟨_, _, _, .header passed (by simp)⟩
    | [_] => exact ⟨_, _, _, .header passed (by simp)⟩
    | l1 :: l2 :: more =>
      by_cases range : l1.toNat * 256 + l2.toNat < 2 ∨ 252 < l1.toNat * 256 + l2.toNat
      · obtain ⟨records, st, held, examined⟩ := ih _ (by simp; omega) (l1 :: l2 :: more) rfl
        exact ⟨records, st, held, .badLength passed range examined⟩
      · by_cases short : more.length < l1.toNat * 256 + l2.toNat + 2
        · exact ⟨_, _, _, .collecting passed (by omega) (by omega) short⟩
        · refine examined_whole passed (by omega) (by omega) (by omega) fun bs shorter => ih _ ?_ bs rfl
          simp only [List.length_append, List.length_cons]
          omega
  · exact ⟨_, _, _, .passed start⟩

/-! ## One byte -/

section byte

variable {l : Link} {b : Byte} {s : State}

/-- A byte examined with the bytes held before it leaves what R191 finds in them. -/
theorem receivedByte_leaves {bs : List Byte} {records : List Record} {st : ReceiverState} {held : List Byte}
    (on : s.resetAsserted = false) (before : (s.receiver l).held ++ [b] = bs) (examined : Examined bs records st held) :
    Leaves (.receivedByte l b) s (records.foldl (State.takeRecord l) (s.setReceiver l ⟨st, held, s.time⟩)) := by
  refine leaves_powered (f := fun s => s.receiveByte l b) rfl on ?_
  unfold State.receiveByte
  rw [before]
  exact examine_of_examined examined s l s.time

/-- A byte that does not make the attempt fail is no framing discard (log 5). -/
theorem framingDiscard_nothing (on : s.resetAsserted = false) (fine : discardsOn (s.receiver l).held b = false) :
    Leaves (.framingDiscard l b) s s :=
  leaves_powered (f := fun s => if discardsOn (s.receiver l).held b then s.receiveByte l b else s) rfl on
    (by simp [fine])

/-- A byte that makes the attempt fail does as a framing discard what it does when it is received (log 5). -/
theorem framingDiscard_leaves {t : State} (on : s.resetAsserted = false)
    (fails : discardsOn (s.receiver l).held b = true) (received : Leaves (.receivedByte l b) s t) :
    Leaves (.framingDiscard l b) s t := by
  have discard := exec_eq_powered (i := .framingDiscard l b)
    (f := fun s => if discardsOn (s.receiver l).held b then s.receiveByte l b else s) rfl on
  have whole := exec_eq_powered (i := .receivedByte l b) (f := fun s => s.receiveByte l b) rfl on
  rw [if_pos fails] at discard
  exact discard.trans (whole.symm.trans received)

theorem discardsOn_attempt (c : Byte) (bs : List Byte) (b : Byte) :
    discardsOn (c :: bs) b = true ↔ attempt (bs ++ [b]) = .bad := by
  unfold discardsOn
  dsimp only
  cases attempt (bs ++ [b]) <;> simp

theorem discardsOn_fine {c : Byte} {bs : List Byte} {b : Byte} (fine : attempt (bs ++ [b]) ≠ .bad) :
    discardsOn (c :: bs) b = false := by
  rwa [← Bool.not_eq_true, discardsOn_attempt]

end byte

/-! ## What a byte does, by what is held -/

section cases

variable {l : Link} {b l1 l2 : Byte} {bs : List Byte} {s : State} (on : s.resetAsserted = false)
include on

theorem framingDiscard_header (held : (s.receiver l).held = [] ∨ (s.receiver l).held = [0xC5]) :
    Leaves (.framingDiscard l b) s s := by
  refine framingDiscard_nothing on ?_
  obtain held | held := held
  · rw [held]
    rfl
  · rw [held]
    rfl

/-- A byte that leaves the attempt collecting is held (R191). -/
theorem byte_collects (held : (s.receiver l).held ++ [b] = 0xC5 :: l1 :: l2 :: bs)
    (low : 2 ≤ l1.toNat * 256 + l2.toNat) (high : l1.toNat * 256 + l2.toNat ≤ 252)
    (short : bs.length < l1.toNat * 256 + l2.toNat + 2) :
    Leaves (.receivedByte l b) s (s.setReceiver l ⟨.collect, 0xC5 :: l1 :: l2 :: bs, s.time⟩) :=
  receivedByte_leaves on held (.collecting (pre := []) (by simp) low high short)

theorem framingDiscard_collects {more : List Byte} (held : (s.receiver l).held = 0xC5 :: more)
    (all : more ++ [b] = l1 :: l2 :: bs)
    (low : 2 ≤ l1.toNat * 256 + l2.toNat) (high : l1.toNat * 256 + l2.toNat ≤ 252)
    (short : bs.length < l1.toNat * 256 + l2.toNat + 2) : Leaves (.framingDiscard l b) s s := by
  refine framingDiscard_nothing on ?_
  rw [held]
  refine discardsOn_fine ?_
  rw [all, attempt_collecting l1 l2 bs low high short]
  exact Attempt.noConfusion

/-- A byte that makes the attempt fail has the bytes after its start character examined again, received or discarded
(R191, log 5). -/
theorem byte_fails {more : List Byte} {records : List Record} {st : ReceiverState} {left : List Byte}
    (held : (s.receiver l).held = 0xC5 :: more) (fails : attempt (more ++ [b]) = .bad)
    (examined : Examined (0xC5 :: (more ++ [b])) records st left) :
    Leaves (.receivedByte l b) s (records.foldl (State.takeRecord l) (s.setReceiver l ⟨st, left, s.time⟩)) ∧
    Leaves (.framingDiscard l b) s (records.foldl (State.takeRecord l) (s.setReceiver l ⟨st, left, s.time⟩)) := by
  have received := receivedByte_leaves (b := b) on (by rw [held, List.cons_append]) examined
  refine ⟨received, framingDiscard_leaves on ?_ received⟩
  rw [held]
  exact (discardsOn_attempt _ _ _).mpr fails

end cases

/-- The content of an attempt whose bytes have all arrived, and its CRC, as the attempt's bytes. -/
theorem attempt_content {l1 l2 hi lo : Byte} {content : List Byte} (low : 2 ≤ l1.toNat * 256 + l2.toNat)
    (high : l1.toNat * 256 + l2.toNat ≤ 252) (size : content.length = l1.toNat * 256 + l2.toNat)
    (crc : crc16 (l1 :: l2 :: content) ≠ hi ++ lo) : attempt (l1 :: l2 :: (content ++ [hi, lo])) = .bad := by
  match content, size with
  | [], size => simp at size; omega
  | [_], size => simp at size; omega
  | kind :: tag :: body, size =>
    rw [List.length_cons, List.length_cons] at size
    exact (attempt_whole l1 l2 kind tag hi lo body [] size (by omega)).trans (if_neg crc)

theorem receiverTimeout_nothing {l : Link} {s : State} (on : s.resetAsserted = false)
    (early : (s.receiver l).state = .hunt ∨ elapsed s.time (s.receiver l).lastByte = 0) :
    Leaves (.receiverTimeout l) s s := by
  refine leaves_powered (f := fun s => s.timeout l) rfl on (if_neg ?_)
  unfold State.timeoutDue
  obtain idle | fresh := early
  · simp [idle]
  · simp [fresh]

theorem receiverTimeout_leaves {l : Link} {s : State} {bs : List Byte} {records : List Record} {st : ReceiverState}
    {left : List Byte} (on : s.resetAsserted = false) (busy : (s.receiver l).state ≠ .hunt)
    (late : 1 ≤ elapsed s.time (s.receiver l).lastByte) (held : (s.receiver l).held = 0xC5 :: bs)
    (examined : Examined bs records st left) : Leaves (.receiverTimeout l) s
      (records.foldl (State.takeRecord l) (s.setReceiver l ⟨st, left, (s.receiver l).lastByte⟩)) := by
  refine leaves_powered (f := fun s => s.timeout l) rfl on ((if_pos ?_).trans ?_)
  · simp [State.timeoutDue, busy, late]
  · rw [held]
    exact examine_of_examined examined s l _

/-- Settles O52: each byte is examined with the bytes held before it. -/
theorem receiverBytes : Obligations.ReceiverBytes := by
  refine ⟨examined_exists, fun l b s on => ?_⟩
  intro r left again
  refine ⟨fun held other => ?_, fun held start => ?_, fun held => ?_, framingDiscard_header on, fun l1 held => ?_,
    fun l1 l2 bs held low high => ⟨fun short => ?_, fun content first parts size => ⟨fun crc => ⟨?_, ?_⟩, fun crc => ?_⟩⟩,
    receiverTimeout_nothing on, fun bs busy late held records st left examined =>
      receiverTimeout_leaves on busy late held examined⟩
  · exact receivedByte_leaves on (congrArg (· ++ [b]) held) (.passed (by simpa using other.symm))
  · subst start
    exact receivedByte_leaves on (congrArg (· ++ [0xC5]) held) (.header (pre := []) (post := []) (by simp) (by simp))
  · exact receivedByte_leaves on (congrArg (· ++ [b]) held) (.header (pre := []) (post := [b]) (by simp) (by simp))
  · intro n
    refine ⟨fun low high => ⟨byte_collects on (congrArg (· ++ [b]) held) low high (by simp),
      framingDiscard_collects on held rfl low high (by simp)⟩, fun bad => ?_⟩
    have fails : attempt ([l1] ++ [b]) = .bad := attempt_badLength l1 b [] bad
    exact ⟨fun records st left examined =>
        (byte_fails on held fails (.badLength (pre := []) (by simp) bad examined)).1,
      fun records st left examined =>
        (byte_fails on held fails (.badLength (pre := []) (by simp) bad examined)).2⟩
  · have all : r.held ++ [b] = 0xC5 :: l1 :: l2 :: (bs ++ [b]) := congrArg (· ++ [b]) held
    have room : (bs ++ [b]).length < l1.toNat * 256 + l2.toNat + 2 := by simp; omega
    have received := byte_collects on all low high room
    rw [← all] at received
    exact ⟨received, framingDiscard_collects on held rfl low high room⟩
  · refine framingDiscard_nothing on ?_
    obtain ⟨kind, tag, body, rfl⟩ : ∃ kind tag body, content = kind :: tag :: body := by
      match content, size with
      | [], size => simp at size; omega
      | [_], size => simp at size; omega
      | kind :: tag :: body, _ => exact ⟨kind, tag, body, rfl⟩
    rw [show (s.receiver l).held = _ from held, parts]
    refine discardsOn_fine ?_
    have whole := attempt_whole l1 l2 kind tag first b body [] (by simpa using size) (by simp at size; omega)
    rw [if_pos crc] at whole
    have bytes : l1 :: l2 :: (kind :: tag :: body ++ [first]) ++ [b] = l1 :: l2 :: (kind :: tag :: body ++ [first, b]) := by
      simp
    rw [bytes, whole]
    exact Attempt.noConfusion
  · rintro kind tag body rfl
    have short : body.length ≤ 250 := by simp at size; omega
    have bytes := frame_eq short (by simpa using size) crc
    have taken := Examined.taken (kind := kind) (tag := tag) (pre := []) (by simp) short (.passed (bs := []) (by simp))
    refine receivedByte_leaves on ?_ taken
    rw [show (s.receiver l).held = _ from held, parts, bytes]
    simp
  · have bytes : l1 :: l2 :: bs ++ [b] = l1 :: l2 :: (content ++ [first, b]) := by simp [parts]
    have fails : attempt (l1 :: l2 :: bs ++ [b]) = .bad := bytes ▸ attempt_content low high size crc
    have lost : ∀ {records st left}, Examined (l1 :: l2 :: bs ++ [b]) records st left →
        Examined (0xC5 :: (l1 :: l2 :: bs ++ [b])) records st left := by
      intro records st left examined
      rw [bytes] at examined ⊢
      exact .badCrc (pre := []) (by simp) (by omega) (by omega) size crc examined
    exact ⟨fun records st left examined => (byte_fails on held fails (lost examined)).1,
      fun records st left examined => (byte_fails on held fails (lost examined)).2⟩

/-! ## A whole frame -/

/-- The receiver of a link holding an attempt's bytes, the last of them just received. -/
def State.attempting (s : State) (l : Link) (held : List Byte) : State :=
  s.setReceiver l ⟨receiverStateOf held, held, s.time⟩

section feeding

variable {l : Link} {s : State}

theorem setReceiver_setReceiver (s : State) (l : Link) (r q : Receiver) :
    (s.setReceiver l r).setReceiver l q = s.setReceiver l q := by
  simp [State.setReceiver]

theorem lanesRunning_setReceiver (running : s.lanesRunning) (r : Receiver) : (s.setReceiver l r).lanesRunning := running

/-- A byte that leaves the attempt as it is, one byte longer. -/
theorem attempting_byte {held : List Byte} {b : Byte} (on : s.resetAsserted = false) (running : s.lanesRunning)
    (collects : Examined (held ++ [b]) [] (receiverStateOf (held ++ [b])) (held ++ [b])) :
    exec (.receivedByte l b) (s.attempting l held) = .next (s.attempting l (held ++ [b])) := by
  have received := receivedByte_leaves (s := s.attempting l held) (l := l) (b := b) on
    (by rw [State.attempting, setReceiver_self]) collects
  refine received.trans ?_
  unfold State.attempting
  rw [List.foldl_nil, setReceiver_setReceiver]
  exact congrArg Host.Outcome.next (startLanes_running (lanesRunning_setReceiver running _))

/-- A proper part of a frame, from its start character on, leaves its receiver collecting (R191). -/
theorem examined_part {l1 l2 : Byte} {more held rest : List Byte} (low : 2 ≤ l1.toNat * 256 + l2.toNat)
    (high : l1.toNat * 256 + l2.toNat ≤ 252) (size : more.length = l1.toNat * 256 + l2.toNat + 2)
    (parts : held ++ rest = l1 :: l2 :: more) (left : rest ≠ []) :
    Examined (0xC5 :: held) [] (receiverStateOf (0xC5 :: held)) (0xC5 :: held) := by
  match held, parts with
  | [], _ => exact .header (pre := []) (post := []) (by simp) (by simp)
  | [b], _ => exact .header (pre := []) (post := [b]) (by simp) (by simp)
  | a :: b :: some_more, parts =>
    simp only [List.cons_append, List.cons.injEq] at parts
    obtain ⟨rfl, rfl, rfl⟩ := parts
    have := List.length_pos_of_ne_nil left
    rw [List.length_append] at size
    exact .collecting (pre := []) (by simp) low high (by omega)

/-- The rest of a frame fed to the receiver that holds its first part: the record is taken with the last byte. -/
theorem feed_rest {l1 l2 kind tag hi lo : Byte} {body : List Byte} (on : s.resetAsserted = false)
    (running : s.lanesRunning) (short : body.length ≤ 250) (len : body.length + 2 = l1.toNat * 256 + l2.toNat)
    (crc : crc16 (l1 :: l2 :: kind :: tag :: body) = hi ++ lo) (rest held : List Byte)
    (parts : held ++ rest = l1 :: l2 :: (kind :: tag :: body ++ [hi, lo])) (left : rest ≠ []) :
    feed l rest (s.attempting l (0xC5 :: held)) =
      .next (State.takeRecord l (s.setReceiver l ⟨.hunt, [], s.time⟩) ⟨kind, tag, body⟩).startLanes := by
  induction rest generalizing held with
  | nil => exact absurd rfl left
  | cons b rest ih =>
    by_cases last : rest = []
    · subst last
      have taken := Examined.taken (kind := kind) (tag := tag) (pre := []) (by simp) short
        (.passed (bs := []) (by simp))
      have bytes : (0xC5 :: held) ++ [b] = [] ++ frame kind tag body ++ [] := by
        rw [frame_eq short len crc, List.cons_append, parts]
        simp
      have received := receivedByte_leaves (s := s.attempting l (0xC5 :: held)) (l := l) (b := b) on
        (by rw [State.attempting, setReceiver_self]; exact bytes) taken
      unfold feed
      rw [received]
      unfold State.attempting
      rw [setReceiver_setReceiver]
      rfl
    · have shifted : held ++ [b] ++ rest = l1 :: l2 :: (kind :: tag :: body ++ [hi, lo]) := by simpa using parts
      have collects := examined_part (by omega) (by omega) (by simp; omega) shifted last
      unfold feed
      rw [attempting_byte on running (held := 0xC5 :: held) collects]
      exact ih (held ++ [b]) shifted last

end feeding

/-- Settles O53: every byte but the last leaves the receiver collecting. -/
theorem framedRecordTaken : Obligations.FramedRecordTaken := by
  intro l kind tag body s since on running empty short
  obtain ⟨l1, l2, hi, lo, bytes, len, crc⟩ := frame_bytes kind tag body short
  have start : exec (.receivedByte l 0xC5) s = .next (s.attempting l [0xC5]) := by
    have received := receivedByte_leaves (s := s) (l := l) (b := 0xC5) on (by rw [empty, List.nil_append])
      (.header (pre := []) (post := []) (by simp) (by simp))
    exact received.trans (congrArg Host.Outcome.next (startLanes_running (lanesRunning_setReceiver running _)))
  rw [bytes]
  unfold feed
  rw [start]
  exact feed_rest on running short len crc _ [] rfl (by simp)

end Sys2Proof.Machine
end

section
/-! What every step keeps, as relations between the state before and after: the laws upheld, the ring and the alarm
kept, and the changes told. Each is passed on from one operation to the next, so that a row is settled by its
operations. -/

namespace Sys2Proof.Machine
open Sys2Proof

/-! ## The laws upheld -/

/-- The command port is within its bounds (R178). -/
def CommandPort.fits (p : CommandPort) : Prop := p.placesHeld ≤ 4 ∧ p.overloads ≤ 8

/-- What holds of s by the laws of the device holds of t. Each law is upheld outright where t has what the law reads as
s has it. -/
structure State.Upholds (s t : State) : Prop where
  port : s.port.fits → t.port.fits := by exact id
  reports : s.reports.queue.length ≤ 64 → t.reports.queue.length ≤ 64 := by exact id
  runLog : s.runLog.entries.length ≤ 256 → t.runLog.entries.length ≤ 256 := by exact id
  faults : s.faults.count ≤ 65535 → t.faults.count ≤ 65535 := by exact id
  queues : s.queueLaw → t.queueLaw := by exact id
  fits : s.speedsFit → s.gangLaw → t.speedsFit := by exact fun h _ => h
  speeds : s.speedLaw → t.speedLaw := by exact id
  gangs : s.gangLaw → t.gangLaw := by exact id
  trains : s.trainLaw → t.trainLaw := by exact id
  tables : s.tableLaw → t.tableLaw := by exact id

theorem upholds_refl (s : State) : s.Upholds s := {}

theorem State.Upholds.trans {s t u : State} (first : s.Upholds t) (next : t.Upholds u) : s.Upholds u where
  port h := next.port (first.port h)
  reports h := next.reports (first.reports h)
  runLog h := next.runLog (first.runLog h)
  faults h := next.faults (first.faults h)
  queues h := next.queues (first.queues h)
  fits h law := next.fits (first.fits h law) (first.gangs law)
  speeds h := next.speeds (first.speeds h)
  gangs h := next.gangs (first.gangs h)
  trains h := next.trains (first.trains h)
  tables h := next.tables (first.tables h)

/-! ## The ring and the alarm kept -/

/-- No serial counter is lower in t than in s, no locked extent has left a chain, and none has been reserved (R2, R18,
R20, R26). -/
def State.ringKept (s t : State) : Prop :=
  ∀ x, (s.train x).serialCounter ≤ (t.train x).serialCounter ∧
    (∀ e ∈ (s.train x).chain, 0 < lockCount s.locks e.extent → e.extent ∈ (t.train x).chain.map (·.extent)) ∧
    ∀ e, (t.train x).reserved = some e → 0 < lockCount s.locks e → (s.train x).reserved = some e

theorem ringKept_of_trains {s t : State} (same : t.trains = s.trains) : s.ringKept t := by
  intro x
  have train : t.train x = s.train x := by simp only [State.train, same]
  rw [train]
  exact ⟨le_rfl, fun e mem _ => List.mem_map_of_mem mem, fun e reserved _ => reserved⟩

theorem ringKept_trans {s t u : State} (locks : t.locks = s.locks) (first : s.ringKept t) (next : t.ringKept u) :
    s.ringKept u := by
  intro x
  obtain ⟨low, stays, free⟩ := first x
  obtain ⟨low', stays', free'⟩ := next x
  rw [locks] at stays' free'
  refine ⟨low.trans low', fun e mem locked => ?_, fun e reserved locked => free e (free' e reserved locked) locked⟩
  obtain ⟨d, held, same⟩ := List.mem_map.mp (stays e mem locked)
  exact same ▸ stays' d held (same.symm ▸ locked)

/-- The alarm has been left alone or driven (R187). -/
def State.alarmKept (s t : State) : Prop := t.alarm = s.alarm ∨ t.alarm.line = .asserted

theorem alarmKept_trans {s t u : State} (first : s.alarmKept t) (next : t.alarmKept u) : s.alarmKept u := by
  obtain same | driven := next
  · unfold State.alarmKept
    rw [same]
    exact first
  · exact .inr driven

/-- What an operation keeps that neither is a reset nor sets a lock, a clip's angles apart: the laws, the ring and the
alarm, with internal time and the lock counts as they were. -/
structure State.Works (s t : State) : Prop where
  upholds : s.Upholds t := by exact {}
  time : t.time = s.time := by rfl
  locks : t.locks = s.locks := by rfl
  ring : s.trainLaw → s.tableLaw → s.ringKept t := by exact fun _ _ => ringKept_of_trains rfl
  alarm : s.alarmKept t := by exact .inl rfl

theorem works_refl (s : State) : s.Works s := {}

theorem State.Works.trans {s t u : State} (first : s.Works t) (next : t.Works u) : s.Works u where
  upholds := first.upholds.trans next.upholds
  time := next.time.trans first.time
  locks := next.locks.trans first.locks
  ring trains tables := ringKept_trans first.locks (first.ring trains tables)
    (next.ring (first.upholds.trains trains) (first.upholds.tables tables))
  alarm := alarmKept_trans first.alarm next.alarm

/-! ## Changes told -/

/-- The reports raised from s to t, with for each change of a channel's state or source one that tells it, from a state
before that stands in a relation to s (R70). -/
def State.TellsFrom (origin : ChannelId → TransportState → Prop) (s t : State) : Prop :=
  ∃ bodies : List ReportBody, t.reports = (bodies.foldl State.raise s).reports ∧
    ∀ c, (t.channel c).state ≠ (s.channel c).state ∨ (t.channel c).source ≠ (s.channel c).source →
      ∃ before x serial cause, origin c before ∧
        .stateChanged c before (t.channel c).state ⟨(t.channel c).source, x⟩ serial cause ∈ bodies

/-- Each change is told from the state the channel had in s. -/
abbrev State.Tells (s t : State) : Prop := State.TellsFrom (fun c before => before = (s.channel c).state) s t

/-- Each change is told. -/
abbrev State.Murmurs (s t : State) : Prop := State.TellsFrom (fun _ _ => True) s t

/-- Reports may have been raised, and no channel has changed its state or source. -/
def State.Rests (s t : State) : Prop :=
  (∃ bodies : List ReportBody, t.reports = (bodies.foldl State.raise s).reports) ∧
    ∀ c, (t.channel c).state = (s.channel c).state ∧ (t.channel c).source = (s.channel c).source

theorem rests_of_same {s t : State} (reports : t.reports = s.reports) (channels : t.channels = s.channels) :
    s.Rests t := by
  refine ⟨⟨[], reports⟩, fun c => ?_⟩
  unfold State.channel
  rw [channels]
  exact ⟨rfl, rfl⟩

theorem raised_append {s t u : State} {first next : List ReportBody} (time : t.time = s.time)
    (raised : t.reports = (first.foldl State.raise s).reports) (more : u.reports = (next.foldl State.raise t).reports) :
    u.reports = ((first ++ next).foldl State.raise s).reports := by
  rw [more, List.foldl_append]
  exact raises_reports_congr next raised (time.trans (raises_time s first).symm)

theorem State.Rests.trans {s t u : State} (time : t.time = s.time) (first : s.Rests t) (next : t.Rests u) :
    s.Rests u := by
  obtain ⟨⟨bodies, raised⟩, same⟩ := first
  obtain ⟨⟨more, raised'⟩, same'⟩ := next
  exact ⟨⟨bodies ++ more, raised_append time raised raised'⟩, fun c =>
    ⟨(same' c).1.trans (same c).1, (same' c).2.trans (same c).2⟩⟩

theorem State.Rests.tells {s t : State} {origin : ChannelId → TransportState → Prop} (rests : s.Rests t) :
    State.TellsFrom origin s t := by
  obtain ⟨⟨bodies, raised⟩, same⟩ := rests
  refine ⟨bodies, raised, fun c changed => ?_⟩
  obtain ⟨state, source⟩ := same c
  exact absurd changed (by simp [state, source])

/-- Changes told one after the other: what the later ones tell, they tell from the first's origin, where the first has
changed nothing. -/
theorem tellsFrom_trans {s t u : State} {origin origin' : ChannelId → TransportState → Prop} (time : t.time = s.time)
    (first : State.TellsFrom origin s t) (next : State.TellsFrom origin' t u)
    (since : ∀ c before, (u.channel c).state ≠ (t.channel c).state ∨ (u.channel c).source ≠ (t.channel c).source →
      origin' c before → origin c before) : State.TellsFrom origin s u := by
  obtain ⟨bodies, raised, told⟩ := first
  obtain ⟨more, raised', told'⟩ := next
  refine ⟨bodies ++ more, raised_append time raised raised', fun c changed => ?_⟩
  by_cases late : (u.channel c).state ≠ (t.channel c).state ∨ (u.channel c).source ≠ (t.channel c).source
  · obtain ⟨before, x, serial, cause, from_origin, mem⟩ := told' c late
    exact ⟨before, x, serial, cause, since c before late from_origin, List.mem_append_right _ mem⟩
  · obtain ⟨state, source⟩ : (u.channel c).state = (t.channel c).state ∧
        (u.channel c).source = (t.channel c).source := by simpa using late
    rw [state, source] at changed ⊢
    obtain ⟨before, x, serial, cause, from_origin, mem⟩ := told c changed
    exact ⟨before, x, serial, cause, from_origin, List.mem_append_left _ mem⟩

theorem murmurs_of_tells {s t : State} (tells : s.Tells t) : s.Murmurs t := by
  obtain ⟨bodies, raised, told⟩ := tells
  refine ⟨bodies, raised, fun c changed => ?_⟩
  obtain ⟨before, x, serial, cause, -, mem⟩ := told c changed
  exact ⟨before, x, serial, cause, trivial, mem⟩

theorem murmurs_trans {s t u : State} (time : t.time = s.time) (first : s.Murmurs t) (next : t.Murmurs u) :
    s.Murmurs u := tellsFrom_trans time first next fun _ _ _ _ => trivial

/-! ## Operations -/

/-- An operation of a block: it works, leaves the command port, and tells each change. -/
structure State.Acts (s t : State) : Prop where
  works : s.Works t := by exact {}
  port : t.port = s.port := by rfl
  tells : s.Tells t

/-- An operation that changes no channel's state or source. -/
structure State.Idles (s t : State) : Prop where
  works : s.Works t := by exact {}
  port : t.port = s.port := by rfl
  rests : s.Rests t := by exact rests_of_same rfl rfl

theorem idles_refl (s : State) : s.Idles s := {}

theorem State.Idles.acts {s t : State} (idles : s.Idles t) : s.Acts t := ⟨idles.works, idles.port, idles.rests.tells⟩

theorem acts_refl (s : State) : s.Acts s := (idles_refl s).acts

theorem State.Idles.trans {s t u : State} (first : s.Idles t) (next : t.Idles u) : s.Idles u :=
  ⟨first.works.trans next.works, next.port.trans first.port, first.rests.trans first.works.time next.rests⟩

theorem State.Idles.trans_acts {s t u : State} (first : s.Idles t) (next : t.Acts u) : s.Acts u := by
  refine ⟨first.works.trans next.works, next.port.trans first.port,
    tellsFrom_trans first.works.time first.rests.tells next.tells fun c before _ origin => ?_⟩
  exact origin.trans (first.rests.2 c).1

theorem State.Acts.trans_idles {s t u : State} (first : s.Acts t) (next : t.Idles u) : s.Acts u := by
  refine ⟨first.works.trans next.works, next.port.trans first.port,
    tellsFrom_trans (origin' := fun _ _ => False) first.works.time first.tells next.rests.tells fun _ _ _ => False.elim⟩

/-! ## Raising reports and recording faults -/

theorem raise_idles (s : State) (b : ReportBody) : s.Idles (s.raise b) := by
  obtain ⟨r, h⟩ := raise_eq s b
  have reports : (s.raise b).reports = r := by rw [h]
  have length := raise_reports_length (s := s) b
  rw [reports] at length
  rw [h]
  exact { works := { upholds := { reports := length } }, rests := ⟨⟨[b], reports.symm⟩, fun _ => ⟨rfl, rfl⟩⟩ }

theorem recorded_count (r : FaultRecord) (k : FaultKind) (o : Option Nat) (now : Nat) (low : r.count ≤ 65535) :
    (r.recorded k o now).count ≤ 65535 := by
  show r.nextCount ≤ 65535
  unfold FaultRecord.nextCount
  split <;> omega

theorem recordFault_idles (s : State) (k : FaultKind) (o : Option Nat) : s.Idles (s.recordFault k o) := by
  have length := raise_reports_length (s := s) (.recorded k o s.time s.faults.nextCount)
  rw [recordFault_eq_record]
  refine { works := { upholds := { reports := length, faults := recorded_count _ k o s.time }, alarm := ?_ }
           rests := ⟨⟨[_], rfl⟩, fun _ => ⟨rfl, rfl⟩⟩ }
  unfold State.alarmKept
  dsimp only
  split
  · exact .inr rfl
  · exact .inl rfl

/-! ## Notes -/

/-- The bodies raised by notes, the reports among them. -/
theorem noted_bodies (s : State) (l : List Note) : ∃ bodies : List ReportBody,
    (s.noted l).reports = (bodies.foldl State.raise s).reports ∧ ∀ b, .report b ∈ l → b ∈ bodies := by
  induction l generalizing s with
  | nil => exact ⟨[], rfl, fun b mem => absurd mem List.not_mem_nil⟩
  | cons n rest ih =>
    obtain ⟨bodies, raised, within⟩ := ih (s.note n)
    rw [noted_cons, raised]
    cases n with
    | report b =>
      refine ⟨b :: bodies, rfl, fun d mem => ?_⟩
      obtain same | later := List.mem_cons.mp mem
      · cases same
        exact List.mem_cons_self
      · exact List.mem_cons_of_mem _ (within d later)
    | entry e =>
      obtain ⟨b, appended⟩ : ∃ b, (s.appendRun e).reports = (s.raise b).reports :=
        ⟨_, raise_reports_congr (s := s) (t := { s with runLog := s.runLog.append e }) _ rfl rfl⟩
      refine ⟨b :: bodies, ?_, fun d mem => ?_⟩
      · exact raises_reports_congr bodies appended ((note_time s (.entry e)).trans (raise_time s b).symm)
      · obtain same | later := List.mem_cons.mp mem
        · cases same
        · exact List.mem_cons_of_mem _ (within d later)

/-! ## One operation on one channel -/

section played

variable {s : State} {c : ChannelId} {new : Channel} {q : PlayQueue} {f : ArmState → ArmState} {notes : List Note}
  {free : Nat}

/-- What holds of every channel but c before, and of c's new record and queue, holds of every channel after. -/
theorem played_all {p : ChannelId → Channel → PlayQueue → Prop} (others : ∀ d, p d (s.channel d) (s.queue d))
    (self : p c new q) (d : ChannelId) :
    p d ((s.played c new q f notes free).channel d) ((s.played c new q f notes free).queue d) := by
  by_cases same : d = c
  · subst same
    rw [played_channel_self, played_queue_self]
    exact self
  · rw [played_channel_ne _ _ _ _ _ _ _ same, played_queue_ne _ _ _ _ _ _ _ same]
    exact others d

theorem played_panel_kept (p : PanelId) : ((s.played c new q f notes free).panel p).binding = (s.panel p).binding ∧
    ((s.played c new q f notes free).panel p).curve = (s.panel p).curve := by
  obtain ⟨a, panel⟩ := rearm_panel s c f p
  rw [played_panel, panel]
  exact ⟨rfl, rfl⟩

theorem played_speedLaw (permits : s.Permits c new q notes) (law : s.speedLaw) :
    (s.played c new q f notes free).speedLaw := by
  refine ⟨?_, law.2.1, ?_, fun p => ?_⟩
  · exact played_all (p := fun _ ch _ => inSpeedRange ch.speed ∧ inSpeedRange ch.target ∧ 1 ≤ ch.accel ∧
      ch.accel ≤ 38400) law.1 (permits.range law)
  · exact played_all (p := fun _ _ q => ∀ e ∈ q.entries, ∀ v, e.speed = some v → inSpeedRange v) law.2.2.1
      (permits.entries law)
  · rw [(played_panel_kept p).2]
    exact law.2.2.2 p

theorem played_tableLaw (law : s.tableLaw) : (s.played c new q f notes free).tableLaw := by
  obtain ⟨locks, order, low, single⟩ := law
  refine ⟨locks, order, low, fun p q d bound bound' => single p q d ?_ ?_⟩
  · rwa [(played_panel_kept p).1] at bound
  · rwa [(played_panel_kept q).1] at bound'

theorem played_gangLaw (permits : s.Permits c new q notes) (law : s.gangLaw) :
    (s.played c new q f notes free).gangLaw := by
  have follows := permits.following law
  have leads := permits.leader law
  have role := permits.follower law
  have both : ∀ d, ((s.played c new q f notes free).channel d).isFollower = (s.channel d).isFollower ∧
      (((s.played c new q f notes free).channel d).role = .leader ↔ (s.channel d).role = .leader) :=
    played_all (p := fun d ch _ => ch.isFollower = (s.channel d).isFollower ∧
      (ch.role = .leader ↔ (s.channel d).role = .leader)) (fun d => ⟨rfl, Iff.rfl⟩) ⟨role, leads⟩
  refine ⟨played_all (p := fun d ch q => (ch.state = .following ↔ ch.isFollower = true) ∧
    (ch.state = .following → (leaderOf d).isSome = true ∧ ch.source.isTrain = true ∧ q.playing = false) ∧
    (ch.role = .leader → (followerOf d).isSome = true)) law.1 ?_, fun l f pair => ?_⟩
  · obtain ⟨iff, single, first⟩ := law.1 c
    refine ⟨by rw [follows, role]; exact iff, fun st => ?_, fun leader => first (leads.mp leader)⟩
    have before := follows.mp st
    obtain ⟨second, train, off⟩ := single before
    obtain ⟨source, playing⟩ := permits.ganged law before
    exact ⟨second, source.trans train, playing.trans off⟩
  · rw [(both l).2, (both f).1]
    exact law.2 l f pair

theorem played_upholds (permits : s.Permits c new q notes) : s.Upholds (s.played c new q f notes free) where
  reports := noted_reports_length notes
  runLog := noted_runLog_length notes
  queues law := played_all (p := fun _ ch q => q.entries.length ≤ 32 ∧ (q.playing = true →
    ∃ e rest index, q.entries = e :: rest ∧ ch.source = .clip e.clip index)) law (permits.queue law)
  fits law _ := played_all (p := fun _ ch _ => ch.speedsFit) law (permits.fits (law c))
  speeds := played_speedLaw permits
  gangs := played_gangLaw permits
  tables := played_tableLaw

theorem played_tells (permits : s.Permits c new q notes) : s.Tells (s.played c new q f notes free) := by
  obtain ⟨bodies, raised, within⟩ := noted_bodies s notes
  refine ⟨bodies, raised, fun d changed => ?_⟩
  by_cases same : d = c
  · subst same
    rw [played_channel_self] at changed ⊢
    obtain ⟨x, serial, cause, mem⟩ := permits.told (changed.imp Ne.symm Ne.symm)
    exact ⟨_, x, serial, cause, rfl, within _ mem⟩
  · rw [played_channel_ne _ _ _ _ _ _ _ same] at changed
    simp at changed

end played

theorem playsOn_acts {s t : State} {c : ChannelId} (plays : s.PlaysOn t c) : s.Acts t := by
  obtain ⟨new, q, f, notes, free, rfl, permits⟩ := plays
  exact { works := { upholds := played_upholds permits }, tells := played_tells permits }

theorem plays_acts {s t : State} (plays : s.Plays t) : s.Acts t := by
  obtain ⟨c, plays⟩ := plays
  exact playsOn_acts plays

theorem leads_acts {s : State} {v : Verdict} (plays : v.leads State.Plays s) : v.leads State.Acts s := by
  cases v with
  | done t body => exact plays_acts plays
  | refuse st => trivial

end Sys2Proof.Machine
end

section
/-! The operations of the panels, the playback head, the gangs and the marks, as operations of a block: each works and
tells what it changes. -/

namespace Sys2Proof.Machine
open Sys2Proof

/-! ## Operations that change no state or source -/

/-- A panel's record written with its binding and its curve kept. -/
theorem setPanel_idles {s : State} {p : PanelId} {r : Panel} (binding : r.binding = (s.panel p).binding)
    (curve : r.curve = (s.panel p).curve) : s.Idles (s.setPanel p r) := by
  have kept : ∀ q, ((s.setPanel p r).panel q).binding = (s.panel q).binding ∧
      ((s.setPanel p r).panel q).curve = (s.panel q).curve := by
    intro q
    by_cases same : q = p
    · subst same
      rw [setPanel_panel_self]
      exact ⟨binding, curve⟩
    · rw [setPanel_panel_ne _ _ _ same]
      exact ⟨rfl, rfl⟩
  refine { works := { upholds := { speeds := fun law => ?_, tables := fun law => ?_ } } }
  · refine ⟨law.1, law.2.1, law.2.2.1, fun q => ?_⟩
    rw [(kept q).2]
    exact law.2.2.2 q
  · obtain ⟨locks, order, low, single⟩ := law
    refine ⟨locks, order, low, fun q q' c bound bound' => single q q' c ?_ ?_⟩
    · rwa [(kept q).1] at bound
    · rwa [(kept q').1] at bound'

theorem setArm_idles (s : State) (p : PanelId) (a : ArmState) : s.Idles (s.setArm p a) := setPanel_idles rfl rfl

theorem touchPanel_idles (s : State) (p : PanelId) : s.Idles (s.touchPanel p) := setPanel_idles rfl rfl

/-- An operation on one channel that keeps its state and its source. -/
theorem played_idles {s : State} {c : ChannelId} {new : Channel} {q : PlayQueue} {f : ArmState → ArmState}
    {notes : List Note} {free : Nat} (permits : s.Permits c new q notes) (state : new.state = (s.channel c).state)
    (source : new.source = (s.channel c).source) : s.Idles (s.played c new q f notes free) := by
  obtain ⟨bodies, raised, -⟩ := noted_bodies s notes
  refine { works := { upholds := played_upholds permits }, rests := ⟨⟨bodies, raised⟩, fun d => ?_⟩ }
  by_cases same : d = c
  · subst same
    rw [played_channel_self]
    exact ⟨state, source⟩
  · rw [played_channel_ne _ _ _ _ _ _ _ same]
    exact ⟨rfl, rfl⟩

/-- A channel's record written with what the laws look at as it was. -/
theorem setChannel_idles {s : State} {c : ChannelId} {new : Channel}
    (state : new.state = (s.channel c).state := by rfl) (source : new.source = (s.channel c).source := by rfl)
    (role : new.role = (s.channel c).role := by rfl) (speed : new.speed = (s.channel c).speed := by rfl)
    (target : new.target = (s.channel c).target := by rfl) (accel : new.accel = (s.channel c).accel := by rfl) :
    s.Idles (s.setChannel c new) := by
  rw [setChannel_eq_played]
  exact played_idles (permits_of_kept state source role speed target accel) state source

/-- What the laws ask of an operation that keeps the record, and the queue but for its session. -/
theorem permits_of_session {s : State} {c : ChannelId} {q : PlayQueue} {notes : List Note}
    (entries : q.entries = (s.queue c).entries) (playing : q.playing = (s.queue c).playing) :
    s.Permits c (s.channel c) q notes where
  fits := id
  range law := law.1 c
  entries law := by rw [entries]; exact law.2.2.1 c
  following _ := Iff.rfl
  ganged _ _ := ⟨rfl, playing⟩
  leader _ := Iff.rfl
  follower _ := rfl
  queue law := by rw [entries, playing]; exact law c
  told h := by simp at h

theorem countPresent_idles (s : State) (c : ChannelId) (n : Nat) : s.Idles (s.countPresent c n) := by
  obtain ⟨r, free, counted⟩ := countPresent_played s c n
  rw [counted]
  exact played_idles (permits_of_session rfl rfl) rfl rfl

/-! ## Panel records (R96, R101 to R108) -/

section records

variable (s : State) (p : PanelId)

theorem lever_acts (c : ChannelId) {v : Int} (range : s.speedLaw → inSpeedRange v) : s.Acts (s.lever p c v) := by
  unfold State.lever
  split
  · split
    · exact playsOn_acts leverNeutral_plays
    · exact playsOn_acts (leverOut_plays range)
  · split
    · exact (setArm_idles s p .armed).trans_acts (playsOn_acts leverNeutral_plays)
    · exact acts_refl s

theorem wheelRecord_acts (l : Half) : s.Acts (s.wheelRecord p l) := by
  unfold State.wheelRecord
  dsimp only
  split
  · exact (touchPanel_idles s p).acts
  · exact (touchPanel_idles s p).trans_acts (lever_acts _ p _ fun law => leverSpeed_range law p _)

theorem jogRecord_acts (n : Byte) : s.Acts (s.jogRecord p n) := by
  unfold State.jogRecord
  dsimp only
  split
  · exact (touchPanel_idles s p).acts
  · split
    · exact (touchPanel_idles s p).trans_acts (playsOn_acts jogChannel_plays)
    · exact (touchPanel_idles s p).acts

theorem deadMan_acts : s.Acts (s.deadMan p) := by
  unfold State.deadMan
  split
  · exact acts_refl s
  · next c bound =>
    split
    · next due =>
      have st : (s.channel c).state = .shuttle := by
        unfold State.deadManDue at due
        rw [bound] at due
        simp only [Bool.and_eq_true, decide_eq_true_eq] at due
        exact due.1.2
      have stops : s.Idles (s.setChannel c { s.channel c with target := 0 }) := by
        rw [setChannel_eq_played]
        exact played_idles (permits_of_change (fun _ => by simp [st]) (by simp [st]) rfl rfl
          (fun _ => by simp [Channel.speedsFit, st]) (fun law => ⟨(law.1 c).1, by simp [inSpeedRange]⟩) rfl
          (.inr ⟨rfl, rfl⟩) (by simp)) rfl rfl
      exact (stops.trans ((setArm_idles _ p .lost).trans (recordFault_idles _ _ _))).acts
    · exact acts_refl s

end records

/-! ## The clip a TAKE commits (R127, R128) -/

section taking

theorem mem_insertClip {k d : Clip} {l : List Clip} : d ∈ insertClip k l ↔ d = k ∨ d ∈ l := by
  induction l with
  | nil => simp [insertClip]
  | cons a rest ih =>
    unfold insertClip
    split
    · simp
    · simp [ih, or_left_comm]

theorem insertClip_sorted {k : Clip} {l : List Clip} (order : (l.map (·.id)).Pairwise (· < ·))
    (fresh : ∀ d ∈ l, d.id ≠ k.id) : ((insertClip k l).map (·.id)).Pairwise (· < ·) := by
  rw [List.pairwise_map] at order ⊢
  induction l with
  | nil => exact List.pairwise_singleton _ _
  | cons a rest ih =>
    obtain ⟨above, order⟩ := List.pairwise_cons.mp order
    unfold insertClip
    split
    · next low =>
      refine List.pairwise_cons.mpr ⟨fun d mem => ?_, List.pairwise_cons.mpr ⟨above, order⟩⟩
      obtain rfl | later := List.mem_cons.mp mem
      · exact low
      · exact low.trans (above d later)
    · next high =>
      have apart := fresh a List.mem_cons_self
      refine List.pairwise_cons.mpr ⟨fun d mem => ?_, ih order fun d mem => fresh d (List.mem_cons_of_mem a mem)⟩
      obtain rfl | later := mem_insertClip.mp mem
      · omega
      · exact above d later

theorem freeId_fresh {s : State} {bank : Fin 16} {id : Nat} (found : s.freeId bank = some id) :
    (∀ d ∈ s.clips, d.id ≠ id) ∧ id < 1024 := by
  unfold State.freeId at found
  have free := List.find?_some found
  obtain ⟨n, low, same⟩ := List.mem_map.mp (List.mem_of_find?_eq_some found)
  have := List.mem_range.mp low
  have := bank.isLt
  exact ⟨clipOf_none_iff.mp (Option.isNone_iff_eq_none.mp free), by omega⟩

theorem insertClip_idles {s : State} {k : Clip} (fresh : ∀ d ∈ s.clips, d.id ≠ k.id) (low : k.id < 1024)
    (speed : k.speed = none) (bounce : k.bounce = none) : s.Idles { s with clips := insertClip k s.clips } := by
  refine { works := { upholds := { speeds := fun law => ?_, tables := fun law => ?_ } } }
  · obtain ⟨channels, clips, queues, panels⟩ := law
    refine ⟨channels, fun d mem => ?_, queues, panels⟩
    obtain rfl | old := mem_insertClip.mp mem
    · simp [speed, bounce]
    · exact clips d old
  · obtain ⟨locks, order, below, single⟩ := law
    refine ⟨locks, insertClip_sorted order fresh, fun d mem => ?_, single⟩
    obtain rfl | old := mem_insertClip.mp mem
    · exact low
    · exact below d old

theorem commitTake_acts {s : State} {c : ChannelId} {k : Clip} (id : (∀ d ∈ s.clips, d.id ≠ k.id) ∧ k.id < 1024)
    (speed : k.speed = none) (bounce : k.bounce = none) : (s.commitTake c k).leads State.Acts s := by
  rw [commitTake_eq]
  show s.Acts (s.committed c k)
  unfold State.committed
  exact ((insertClip_idles id.1 id.2 speed bounce).trans (State.Idles.trans setChannel_idles (raise_idles _ _))).acts

theorem takeOn_acts (c : ChannelId) (s : State) : (takeOn c s).leads State.Acts s := by
  unfold takeOn
  split
  · trivial
  · split
    · trivial
    · split
      · trivial
      · split
        · trivial
        · next id found =>
          dsimp only
          split
          · trivial
          · exact commitTake_acts (freeId_fresh found) rfl rfl

theorem take_acts (b : Byte) (s : State) : (take b s).leads State.Acts s :=
  leads_onChannel fun c => takeOn_acts c s

end taking

/-! ## Keys (R105) -/

section keys

variable (s : State) (p : PanelId) (c : ChannelId)

theorem keyCommand_acts (code : Byte) (free : (s.channel c).state ≠ .following) :
    ∀ v, keyCommand code c s = some v → v.leads State.Acts s := by
  intro v named
  unfold keyCommand at named
  split at named
  case h_11 => cases named
  all_goals
    injection named with named
    subst named
  case h_1 => exact leads_acts (playOn_plays (by simp) free)
  case h_2 => exact leads_acts (pauseOn_plays free)
  case h_3 => exact leads_acts markInOn_plays
  case h_4 => exact leads_acts markOutOn_plays
  case h_5 => exact takeOn_acts c s
  case h_6 => exact leads_acts (cueOn_plays free)
  case h_7 => exact leads_acts (cueOn_plays free)
  case h_8 => exact leads_acts (liveOn_plays free)
  case h_9 => exact leads_acts (angleNextOn_plays free)
  case h_10 => exact leads_acts (queueNextOn_plays c .key s)

theorem settleKey_acts {code : Byte} {v : Verdict} (leads : v.leads State.Acts s) :
    s.Acts (s.settleKey p c code v) := by
  cases v with
  | done t body => exact leads
  | refuse st => exact (raise_idles s _).acts

theorem pressKey_acts (code : Byte) : s.Acts (s.pressKey p c code) := by
  unfold State.pressKey
  split
  · exact (raise_idles s _).acts
  · next free =>
    split
    · exact acts_refl s
    · next v named => exact settleKey_acts s p c (keyCommand_acts s c code free v named)

theorem keyRecord_acts (code press : Byte) : s.Acts (s.keyRecord p code press) := by
  unfold State.keyRecord
  dsimp only
  split
  · exact (touchPanel_idles s p).acts
  · split
    · exact (touchPanel_idles s p).trans_acts (pressKey_acts _ p _ code)
    · exact (touchPanel_idles s p).acts

end keys

/-! ## Requests of the playback link (R49 to R65) -/

section requests

/-- However many pieces of sub-steps run, a change is told from the state they began in: what leaves PLAYING or SHUTTLE
does not come back. -/
theorem runs_acts {s t : State} {c : ChannelId} (runs : State.Runs c s t) : s.Acts t := by
  induction runs with
  | refl => exact acts_refl s
  | @tail t u before tick ih =>
    obtain ⟨plays, turns⟩ := tick
    have acts := playsOn_acts plays
    refine ⟨ih.works.trans acts.works, acts.port.trans ih.port,
      tellsFrom_trans ih.works.time ih.tells acts.tells fun d since changed origin => ?_⟩
    have mine : d = c := by
      by_contra other
      obtain ⟨new, q, f, notes, free, rfl, -⟩ := plays
      rw [played_channel_ne _ _ _ _ _ _ _ other] at changed
      simp at changed
    subst mine
    rw [origin]
    have moving : (t.channel d).state = .playing ∨ (t.channel d).state = .shuttle := by
      obtain ⟨same, source | playing⟩ | ⟨moving, -⟩ := turns
      · simp [same, source] at changed
      · exact .inl playing
      · exact moving
    obtain ⟨same, -⟩ | ⟨-, left⟩ := runs_turns before
    · exact same
    · obtain cued | live := left
      · simp [cued] at moving
      · simp [live] at moving

theorem readyEcho_idles (s : State) (c : ChannelId) (p : Present) : s.Idles (s.readyEcho c p) := by
  unfold State.readyEcho
  split
  · exact setPanel_idles rfl rfl
  · exact idles_refl s

theorem keepPresent_idles (s : State) (c : ChannelId) (n k : Nat) (tag : Byte) : s.Idles (s.keepPresent c n k tag) := by
  unfold State.keepPresent
  dsimp only
  have formed : s.Idles { s with playout := s.playout.form tag (s.formPresent c n) } := {}
  have counted : ∀ u : State, u.Idles (if 1 ≤ k then u.countPresent c n else u) := by
    intro u
    split
    · exact countPresent_idles u c n
    · exact idles_refl u
  exact formed.trans (State.Idles.trans setChannel_idles (State.Idles.trans (counted _) (readyEcho_idles _ _ _)))

theorem serve_acts (s : State) (c : ChannelId) (n : Nat) (tag : Byte) : s.Acts (s.serve c n tag) := by
  have served : ∀ u : State, u.Idles (if (advanceCount (s.channel c).lastServed n).2 then
      u.recordFault .playoutGap (some c.val) else u) := by
    intro u
    split
    · exact recordFault_idles u _ _
    · exact idles_refl u
  have placed : ∀ u : State, State.Runs c u (if 1 ≤ (advanceCount (s.channel c).lastServed n).1 then u.place c else u) := by
    intro u
    split
    · exact runs_place u c
    · exact .refl
  unfold State.serve
  dsimp only
  have counted : s.Idles (s.setChannel c { s.channel c with lastServed := some n }) := setChannel_idles
  have base := counted.trans (served _)
  have steps := fun u => (runs_runSubSteps c n (advanceCount (s.channel c).lastServed n).1 true u).trans
    ((placed _).trans (runs_settle _ c))
  exact base.trans_acts ((runs_acts (steps _)).trans_idles (keepPresent_idles _ c n _ tag))

theorem frameRequest_acts (tag b : Byte) (n : Word) (s : State) : s.Acts (s.frameRequest tag b n) := by
  unfold State.frameRequest
  split
  · exact serve_acts s _ _ tag
  · exact acts_refl s

end requests

end Sys2Proof.Machine
end

section
/-! The gangs, the bindings and panel settings, the timebase, the clip edits and removals, and the run log, as
operations of a block: each works and tells what it changes. -/

namespace Sys2Proof.Machine
open Sys2Proof

/-! ## Gangs (R155, R157, R162) -/

section pairs

variable {s : State} {l f : ChannelId} {r : GangRole} {new : Channel} {q : PlayQueue} {g : ArmState → ArmState}
  {notes : List Note} {free : Nat}

theorem followerOf_injective {l l' f : ChannelId} (h : followerOf l = some f) (h' : followerOf l' = some f) : l' = l := by
  revert l l' f
  decide

theorem follower_not_first {l f : ChannelId} (h : followerOf l = some f) :
    followerOf f = none ∧ leaderOf l = none ∧ leaderOf f = some l ∧ l ≠ f := by
  revert l f
  decide

/-- What holds of every channel but a pair, and of what an operation leaves of the pair, holds of every channel. -/
theorem paired_all {p : ChannelId → Channel → PlayQueue → Prop} (others : ∀ d, p d (s.channel d) (s.queue d))
    (first : p l { s.channel l with role := r } (s.queue l)) (second : p f new q) (d : ChannelId) :
    p d (((s.setRole l r).played f new q g notes free).channel d)
      (((s.setRole l r).played f new q g notes free).queue d) := by
  refine played_all (fun e => ?_) second d
  by_cases same : e = l
  · subst same
    unfold State.setRole
    rw [setChannel_channel_self]
    exact first
  · unfold State.setRole
    rw [setChannel_channel_ne _ _ _ same]
    exact others e

/-- What the laws ask of an operation that makes a pair or ends it (R155): with role r of the leader, the follower's new
record and queue, and the notes made. -/
structure State.Pairs (s : State) (f : ChannelId) (r : GangRole) (new : Channel) (q : PlayQueue) (notes : List Note) :
    Prop where
  fits : new.speedsFit
  range : s.speedLaw → inSpeedRange new.speed ∧ inSpeedRange new.target ∧ 1 ≤ new.accel ∧ new.accel ≤ 38400
  entries : q.entries = (s.queue f).entries
  playing : q.playing = true → (s.queue f).playing = true ∧ new.source = (s.channel f).source
  gang : (r = .leader ∧ new.state = .following ∧ new.isFollower = true ∧ new.source.isTrain = true ∧
    q.playing = false) ∨ (r = .noGang ∧ new.state ≠ .following ∧ new.isFollower = false ∧ new.role ≠ .leader)
  told : (s.channel f).state ≠ new.state ∨ (s.channel f).source ≠ new.source → ∃ x serial cause,
    .report (.stateChanged f (s.channel f).state new.state ⟨new.source, x⟩ serial cause) ∈ notes

theorem paired_gangLaw (pair : followerOf l = some f) (pairs : s.Pairs f r new q notes) (law : s.gangLaw) :
    ((s.setRole l r).played f new q g notes free).gangLaw := by
  obtain ⟨single, isFirst, isSecond, ne⟩ := follower_not_first pair
  have still : (s.channel l).state ≠ .following := fun st => by
    have second := ((law.1 l).2.1 st).1
    simp [isFirst] at second
  have apart : (new.state = .following ↔ new.isFollower = true) ∧ (r = .leader ↔ new.isFollower = true) ∧
      new.role ≠ .leader ∧ (∀ w, r ≠ .follower w) ∧
      (new.state = .following → new.source.isTrain = true ∧ q.playing = false) := by
    obtain ⟨rfl, st, follower, train, off⟩ | ⟨rfl, st, follower, role⟩ := pairs.gang
    · refine ⟨iff_of_true st follower, iff_of_true rfl follower, fun role => ?_, by simp, fun _ => ⟨train, off⟩⟩
      simp [Channel.isFollower, role] at follower
    · exact ⟨iff_of_false st (by simp [follower]), iff_of_false (by simp) (by simp [follower]), role, by simp,
        fun h => absurd h st⟩
  obtain ⟨own, role, second, roles, follows⟩ := apart
  have leads : ({ s.channel l with role := r } : Channel).isFollower = false := by
    unfold Channel.isFollower
    split
    · next w same => exact absurd same (roles w)
    · rfl
  refine ⟨paired_all (p := fun d ch q => (ch.state = .following ↔ ch.isFollower = true) ∧
    (ch.state = .following → (leaderOf d).isSome = true ∧ ch.source.isTrain = true ∧ q.playing = false) ∧
    (ch.role = .leader → (followerOf d).isSome = true)) law.1 ?_ ?_, fun l' f' pair' => ?_⟩
  · exact ⟨iff_of_false still (by simp [leads]), fun h => absurd h still, fun _ => by rw [pair]; rfl⟩
  · exact ⟨own, fun h => ⟨by rw [isSecond]; rfl, follows h⟩, fun h => absurd h second⟩
  · by_cases mine : l' = l
    · subst mine
      obtain rfl : f = f' := Option.some.inj (pair.symm.trans pair')
      rw [played_channel_self, played_channel_ne _ _ _ _ _ _ _ ne]
      unfold State.setRole
      rw [setChannel_channel_self]
      exact role
    · obtain ⟨single', -, -, -⟩ := follower_not_first pair'
      have second' : f' ≠ f := fun same => mine (followerOf_injective pair (same ▸ pair'))
      have first' : l' ≠ f := fun same => by rw [same, single] at pair'; cases pair'
      have other : f' ≠ l := fun same => by rw [same, pair] at single'; cases single'
      rw [played_channel_ne _ _ _ _ _ _ _ first', played_channel_ne _ _ _ _ _ _ _ second']
      unfold State.setRole
      rw [setChannel_channel_ne _ _ _ mine, setChannel_channel_ne _ _ _ other]
      exact law.2 l' f' pair'

theorem paired_upholds (pair : followerOf l = some f) (pairs : s.Pairs f r new q notes) :
    s.Upholds ((s.setRole l r).played f new q g notes free) where
  reports := noted_reports_length (s := s.setRole l r) notes
  runLog := noted_runLog_length (s := s.setRole l r) notes
  queues law := by
    refine paired_all (p := fun _ ch q => q.entries.length ≤ 32 ∧ (q.playing = true →
      ∃ e rest index, q.entries = e :: rest ∧ ch.source = .clip e.clip index)) law (law l) ?_
    rw [pairs.entries]
    refine ⟨(law f).1, fun playing => ?_⟩
    obtain ⟨before, source⟩ := pairs.playing playing
    rw [source]
    exact (law f).2 before
  fits law gang := by
    refine paired_all (p := fun _ ch _ => ch.speedsFit) law ?_ pairs.fits
    exact law l
  speeds law := by
    refine ⟨paired_all (p := fun _ ch _ => inSpeedRange ch.speed ∧ inSpeedRange ch.target ∧ 1 ≤ ch.accel ∧
      ch.accel ≤ 38400) law.1 (law.1 l) (pairs.range law), law.2.1,
      paired_all (p := fun _ _ q => ∀ e ∈ q.entries, ∀ v, e.speed = some v → inSpeedRange v) law.2.2.1 (law.2.2.1 l)
        (by rw [pairs.entries]; exact law.2.2.1 f), fun p => ?_⟩
    rw [(played_panel_kept (s := s.setRole l r) p).2]
    exact law.2.2.2 p
  gangs := paired_gangLaw pair pairs
  tables := played_tableLaw (s := s.setRole l r)

theorem paired_tells (pair : followerOf l = some f) (pairs : s.Pairs f r new q notes) :
    s.Tells ((s.setRole l r).played f new q g notes free) := by
  obtain ⟨bodies, raised, within⟩ := noted_bodies s notes
  refine ⟨bodies, raised ▸ (noted_congr (s := s) (t := s.setRole l r) notes rfl rfl rfl).2, fun d changed => ?_⟩
  by_cases same : d = f
  · subst same
    rw [played_channel_self] at changed ⊢
    obtain ⟨x, serial, cause, mem⟩ := pairs.told (changed.imp Ne.symm Ne.symm)
    exact ⟨_, x, serial, cause, rfl, within _ mem⟩
  · rw [played_channel_ne _ _ _ _ _ _ _ same] at changed
    by_cases first : d = l
    · subst first
      simp [State.setRole] at changed
    · simp [State.setRole, setChannel_channel_ne _ _ _ first] at changed

theorem paired_acts (pair : followerOf l = some f) (pairs : s.Pairs f r new q notes) :
    s.Acts ((s.setRole l r).played f new q g notes free) :=
  { works := { upholds := paired_upholds pair pairs }, tells := paired_tells pair pairs }

end pairs

theorem gangOn_acts {l f : ChannelId} (pair : followerOf l = some f) (x : TrainId) (s : State) :
    (gangOn l f x s).leads State.Acts s := by
  unfold gangOn
  split
  · trivial
  · next edge _ =>
    show s.Acts (s.gang l f x edge)
    rw [gang_eq_played (follower_not_first pair).2.2.2]
    refine paired_acts pair { fits := ?_, range := fun law => ?_, entries := rfl, playing := by simp, gang := ?_, told := ?_ }
    · exact ⟨rfl, rfl⟩
    · exact ⟨by simp [State.ganging, inSpeedRange], by simp [State.ganging, inSpeedRange], (law.1 f).2.2⟩
    · exact .inl ⟨rfl, rfl, rfl, rfl, rfl⟩
    · exact told_of_changeReport .gang fun b mem => List.mem_append_left _ (mem_cutNotes mem)

theorem gang_acts (a : ChannelTrainArgs) (s : State) : (gang a s).leads State.Acts s := by
  refine leads_onChannel fun c => ?_
  split
  · trivial
  · split
    · trivial
    · next pair => exact gangOn_acts pair _ s

theorem ungang_pair_acts {l f : ChannelId} (pair : followerOf l = some f) (s : State) : s.Acts (s.ungang l f) := by
  rw [ungang_eq_played (follower_not_first pair).2.2.2]
  refine paired_acts pair { fits := ?_, range := fun law => ?_, entries := rfl, playing := ?_, gang := ?_, told := ?_ }
  · exact ⟨rfl, rfl⟩
  · exact ⟨by simp [Channel.leave, inSpeedRange], by simp [Channel.leave, inSpeedRange], (law.1 f).2.2⟩
  · exact fun playing => ⟨playing, rfl⟩
  · exact .inr ⟨rfl, by simp [Channel.leave], rfl, by simp [Channel.leave]⟩
  · exact told_of_changeReport .gang fun b mem => List.mem_map_of_mem mem

theorem followerOf_pairOf (c : ChannelId) : followerOf (pairOf c).1 = some (pairOf c).2 := by
  revert c
  decide

theorem ungang_acts (b : Byte) (s : State) : (ungang b s).leads State.Acts s := by
  refine leads_onChannel fun c => ?_
  show s.Acts (if s.ganged (pairOf c).1 (pairOf c).2 then s.ungang (pairOf c).1 (pairOf c).2 else s)
  split
  · exact ungang_pair_acts (followerOf_pairOf c) s
  · exact acts_refl s

/-! ## The timebase (R28) -/

theorem timebase_idles {s : State} (tb : Timebase) : s.Idles { s with
    timebase := tb
    channels := mapRecords (fun ch => { ch with markIn := none, markOut := none }) s.channels } := by
  have kept : ∀ c, State.channel { s with
      timebase := tb
      channels := mapRecords (fun ch => { ch with markIn := none, markOut := none }) s.channels } c =
      { s.channel c with markIn := none, markOut := none } := fun c => by simp [State.channel]
  refine { works := { upholds := {
      queues := fun law c => ?_, fits := fun law _ c => ?_, speeds := fun law => ⟨fun c => ?_, law.2⟩
      gangs := fun law => ⟨fun c => ?_, fun l f pair => ?_⟩ } }
           rests := ⟨⟨[], rfl⟩, fun c => ?_⟩ }
  · rw [kept]; exact law c
  · rw [kept]; exact law c
  · rw [kept]; exact law.1 c
  · rw [kept]; exact law.1 c
  · rw [kept, kept]; exact law.2 l f pair
  · rw [kept]; exact ⟨rfl, rfl⟩

theorem timebase_acts (a : TimebaseArgs) (s : State) : (timebase a s).leads State.Acts s := by
  unfold timebase
  dsimp only
  split
  · trivial
  · split
    · trivial
    · exact (timebase_idles _).acts

theorem queryAnchors_acts (a : QueryAnchorsArgs) (s : State) : (queryAnchors a s).leads State.Acts s := by
  unfold queryAnchors
  split
  · trivial
  · split
    · trivial
    · exact acts_refl s

/-! ## Panels (R97 to R99, R107) -/

theorem leads_onPanel {R : State → State → Prop} {s : State} {b : Byte} {f : PanelId → State → Verdict}
    (h : ∀ p, (f p s).leads R s) : (onPanel b f s).leads R s := by
  unfold onPanel
  split
  · trivial
  · exact h _

/-- A BIND binds no channel to two panels, as the panel displaced loses its binding. -/
theorem bound_idles (s : State) (p : PanelId) (b : Option ChannelId) : s.Idles (s.bound p b) := by
  have curve : ∀ q, ((s.bound p b).panel q).curve = (s.panel q).curve := by
    intro q
    rw [bound_panel]
    split
    · next same => rw [same]; rfl
    · split
      · rfl
      · rfl
  have single : s.tableLaw → ∀ q c, ((s.bound p b).panel q).binding = some c → q ≠ p →
      (s.panel q).binding = some c ∧ b ≠ some c := by
    intro law q c bound other
    rw [bound_panel, if_neg other] at bound
    split at bound
    · cases bound
    · next apart =>
      exact ⟨bound, fun same => apart (displacedBy_eq law other (by simp [same]) (bound.trans same.symm))⟩
  have own : ((s.bound p b).panel p).binding = b := by
    rw [bound_panel, if_pos rfl]
    rfl
  have frame : s.bound p b = { s with panels := (s.bound p b).panels } := by
    unfold State.bound
    cases s.displacedBy p b <;> rfl
  generalize s.bound p b = t at curve single own frame
  rw [frame] at curve single own ⊢
  refine { works := { upholds := { speeds := fun law => ?_, tables := fun law => ?_ } } }
  · refine ⟨law.1, law.2.1, law.2.2.1, fun q => ?_⟩
    rw [curve q]
    exact law.2.2.2 q
  · obtain ⟨locks, order, low, once⟩ := law
    refine ⟨locks, order, low, fun q q' c bound bound' => ?_⟩
    by_cases mine : q = p
    · subst mine
      by_contra other
      exact (single ⟨locks, order, low, once⟩ q' c bound' (Ne.symm other)).2 (own.symm.trans bound)
    · obtain ⟨before, apart⟩ := single ⟨locks, order, low, once⟩ q c bound mine
      by_cases mine' : q' = p
      · subst mine'
        exact absurd (own.symm.trans bound') apart
      · exact once q q' c before (single ⟨locks, order, low, once⟩ q' c bound' mine').1

theorem bind_acts (a : BindArgs) (s : State) : (bind a s).leads State.Acts s := by
  unfold bind
  split
  · next p b _ _ =>
    unfold bindPanel
    split
    · trivial
    · have bound := (bound_idles s p b).acts
      unfold State.bound at bound
      dsimp only
      split at bound
      · next q found => rw [found]; exact bound
      · next found => rw [found]; exact bound
  · trivial

/-- A curve that keeps the rules of R99 written into a panel. -/
theorem setCurve_idles {s : State} {p : PanelId} {curve : List CurvePoint} (rules : curve.head? = some ⟨0, 0⟩ ∧
    curve.getLast?.map (·.lever) = some 1000 ∧ curve.Pairwise (fun m n => m.lever < n.lever ∧ m.speed ≤ n.speed) ∧
    ∀ q ∈ curve, q.speed ≤ 38400) : s.Idles (s.setPanel p { s.panel p with curve := curve }) := by
  have kept : ∀ q, ((s.setPanel p { s.panel p with curve := curve }).panel q).binding = (s.panel q).binding ∧
      ((s.setPanel p { s.panel p with curve := curve }).panel q).curve = if q = p then curve else (s.panel q).curve := by
    intro q
    by_cases same : q = p
    · subst same
      rw [setPanel_panel_self]
      exact ⟨rfl, (if_pos rfl).symm⟩
    · rw [setPanel_panel_ne _ _ _ same]
      exact ⟨rfl, (if_neg same).symm⟩
  refine { works := { upholds := { speeds := fun law => ?_, tables := fun law => ?_ } } }
  · refine ⟨law.1, law.2.1, law.2.2.1, fun q => ?_⟩
    rw [(kept q).2]
    split
    · exact rules
    · exact law.2.2.2 q
  · obtain ⟨locks, order, low, single⟩ := law
    refine ⟨locks, order, low, fun q q' c bound bound' => single q q' c ?_ ?_⟩
    · rwa [(kept q).1] at bound
    · rwa [(kept q').1] at bound'

/-- An accepted list keeps the rules as the panel keeps it. -/
theorem keptCurve_rules {ps : List CurvePointField} (good : curveValid (curvePoints ps) = true) :
    (keptCurve ps).head? = some ⟨0, 0⟩ ∧ (keptCurve ps).getLast?.map (·.lever) = some 1000 ∧
      (keptCurve ps).Pairwise (fun m n => m.lever < n.lever ∧ m.speed ≤ n.speed) ∧
      ∀ q ∈ keptCurve ps, q.speed ≤ 38400 := by
  obtain ⟨-, -, first, last, rises, range⟩ := curveValid_iff.mp good
  have same : curvePoints ps = (keptCurve ps).map fun q => ((q.lever : Int), (q.speed : Int)) := (keptCurve_eq good).symm
  rw [same] at first last rises range
  rw [List.head?_map, Option.map_eq_some_iff] at first
  rw [List.getLast?_map, Option.map_map, Option.map_eq_some_iff] at last
  rw [List.pairwise_map] at rises
  obtain ⟨⟨l, v⟩, head, zero⟩ := first
  obtain ⟨⟨m, w⟩, tail, top⟩ := last
  simp only [Prod.mk.injEq, Function.comp_apply] at zero top
  refine ⟨?_, ?_, rises.imp fun h => ?_, fun q mem => ?_⟩
  · rw [head, show l = 0 by omega, show v = 0 by omega]
  · rw [tail, show m = 1000 by omega]; rfl
  · simp only at h; omega
  · have := (range _ (List.mem_map_of_mem mem)).2
    simp only at this; omega

theorem setCurve_acts (a : SetCurveArgs) (s : State) : (setCurve a s).leads State.Acts s := by
  refine leads_onPanel fun p => ?_
  split
  · next valid => exact State.Idles.acts (s := s) (setCurve_idles (keptCurve_rules valid))
  · trivial

theorem queryCurve_acts (b : Byte) (s : State) : (queryCurve b s).leads State.Acts s :=
  leads_onPanel fun _ => acts_refl s

theorem setSilence_acts (a : SetSilenceArgs) (s : State) : (setSilence a s).leads State.Acts s := by
  refine leads_onPanel fun p => ?_
  split
  · exact State.Idles.acts (s := s) (setPanel_idles rfl rfl)
  · trivial

/-! ## Clips (R142 to R149) -/

theorem leads_onClip {R : State → State → Prop} {s : State} {w : Half} {f : Clip → State → Verdict}
    (h : ∀ k ∈ s.clips, (f k s).leads R s) : (onClip w f s).leads R s := by
  unfold onClip
  split
  · trivial
  · next id _ =>
    split
    · trivial
    · next k found => exact h k (List.mem_of_find?_eq_some found)

theorem leads_onBank {R : State → State → Prop} {s : State} {b : Byte} {f : Fin 16 → State → Verdict}
    (h : ∀ n, (f n s).leads R s) : (onBank b f s).leads R s := by
  unfold onBank
  split
  · trivial
  · exact h _

/-- A clip's record written under its own id, with play settings in their range. -/
theorem setClip_idles {s : State} {k k' : Clip} (mem : k ∈ s.clips) (same : k'.id = k.id)
    (settings : s.speedLaw → (∀ v, k'.speed = some v → inSpeedRange v) ∧ ∀ b, k'.bounce = some b →
      1 ≤ b.forwardSpeed ∧ b.forwardSpeed ≤ 38400 ∧ 1 ≤ b.reverseSpeed ∧ b.reverseSpeed ≤ 38400) :
    s.Idles (s.setClip k') := by
  have ids : ((s.setClip k').clips.map (·.id)) = s.clips.map (·.id) := by
    unfold State.setClip
    rw [List.map_map]
    refine List.map_congr_left fun d _ => ?_
    dsimp only [Function.comp_apply]
    split
    · next same => exact same.symm
    · rfl
  refine { works := { upholds := { speeds := fun law => ⟨law.1, fun d hd => ?_, law.2.2⟩, tables := fun law => ?_ } } }
  · obtain ⟨old, held, rfl⟩ := List.mem_map.mp hd
    split
    · exact settings law
    · exact law.2.1 old held
  · obtain ⟨locks, order, low, once⟩ := law
    refine ⟨locks, by rw [ids]; exact order, fun d hd => ?_, once⟩
    obtain ⟨old, held, rfl⟩ := List.mem_map.mp hd
    split
    · rw [same]; exact low k mem
    · exact low old held

theorem rename_acts (a : RenameArgs) (s : State) : (rename a s).leads State.Acts s := by
  unfold rename
  split
  · exact leads_onClip fun k mem => State.Idles.acts (s := s) (setClip_idles mem rfl fun law => law.2.1 k mem)
  · trivial

theorem rate_acts (a : RateArgs) (s : State) : (rate a s).leads State.Acts s := by
  unfold rate
  split
  · exact leads_onClip fun k mem => State.Idles.acts (s := s) (setClip_idles mem rfl fun law => law.2.1 k mem)
  · trivial

theorem setClipPlay_acts (a : SetClipPlayArgs) (s : State) : (setClipPlay a s).leads State.Acts s := by
  unfold setClipPlay
  split
  · next valid =>
    refine leads_onClip fun k mem =>
      State.Idles.acts (s := s) (setClip_idles mem rfl fun law => ⟨fun v set => ?_, fun b set => ?_⟩)
    · have before := (law.2.1 k mem).1
      cases part : a.speed with
      | keep => exact before v (by simpa [part, Part.apply] using set)
      | clear => simp [part, Part.apply] at set
      | value w =>
        obtain rfl : speedOf w = v := by simpa [part, Part.apply] using set
        exact clampSpeed_range _
    · have before := (law.2.1 k mem).2
      cases part : a.bounce with
      | keep => exact before b (by simpa [part, Part.apply] using set)
      | clear => simp [part, Part.apply] at set
      | value w =>
        obtain rfl : bounceOf w = b := by simpa [part, Part.apply] using set
        rw [part] at valid
        exact decide_eq_true_eq.mp valid
  · trivial

theorem queryClip_acts (w : Half) (s : State) : (queryClip w s).leads State.Acts s :=
  leads_onClip fun _ _ => acts_refl s

theorem listBank_acts (a : ListBankArgs) (s : State) : (listBank a s).leads State.Acts s := by
  refine leads_onBank fun n => ?_
  dsimp only
  split
  · trivial
  · exact acts_refl s

theorem guardBank_acts (b : Byte) (s : State) : (guardBank b s).leads State.Acts s :=
  leads_onBank fun _ => State.Idles.acts {}

theorem unguardBank_acts (b : Byte) (s : State) : (unguardBank b s).leads State.Acts s :=
  leads_onBank fun _ => State.Idles.acts {}

/-! ## Clips removed (R142 to R144) -/

/-- What goes with the entries that name it is used by no channel, so that the entry being played stays. -/
theorem without_idles {s : State} {dead : Nat → Bool} (notes : List Note)
    (spared : ∀ c id index, (s.channel c).source = .clip id index → dead id = false) :
    s.Idles (s.without dead notes) := by
  obtain ⟨bodies, raised, -⟩ := noted_bodies s notes
  refine { works := { upholds := {
      reports := noted_reports_length notes, runLog := noted_runLog_length notes, queues := fun law c => ?_
      speeds := fun law => ⟨law.1, fun d hd => law.2.1 d (List.mem_of_mem_filter hd), fun c e he => ?_, law.2.2.2⟩
      gangs := fun law => ⟨fun c => ?_, law.2⟩, tables := fun law => ?_ } }
           rests := ⟨⟨bodies, raised⟩, fun _ => ⟨rfl, rfl⟩⟩ }
  · obtain ⟨size, head⟩ := law c
    rw [without_queue]
    refine ⟨(List.length_filter_le _ _).trans size, fun playing => ?_⟩
    obtain ⟨e, rest, index, entries, source⟩ := head playing
    refine ⟨e, rest.filter fun e => !dead e.clip, index, ?_, source⟩
    dsimp only
    rw [entries, List.filter_cons_of_pos (by simp [spared c _ _ source])]
  · rw [without_queue] at he
    exact law.2.2.1 c e (List.mem_of_mem_filter he)
  · rw [without_queue]
    exact law.1 c
  · obtain ⟨locks, order, low, once⟩ := law
    exact ⟨locks, order.sublist (List.filter_sublist.map _), fun d hd => low d (List.mem_of_mem_filter hd), once⟩

theorem removeClip_idles {s : State} {k : Clip} (unused : (s.users k.id).isEmpty = true) :
    s.Idles (s.removeClip k).1 := by
  rw [(removeClip_eq s k).1]
  refine without_idles _ fun c id index source => ?_
  by_contra same
  obtain rfl : id = k.id := by simpa using same
  have : c ∈ s.users k.id := mem_users.mpr ⟨index, source⟩
  rw [List.isEmpty_iff.mp unused] at this
  exact absurd this List.not_mem_nil

theorem deleteClip_acts (w : Half) (s : State) : (deleteClip w s).leads State.Acts s := by
  refine leads_onClip fun k _ => ?_
  unfold deleteOn
  split
  · trivial
  · split
    · trivial
    · next unused =>
      exact ((removeClip_idles (by simpa using unused)).trans (raise_idles _ _)).acts

/-- Visits one after the other, each of which changes no channel. -/
theorem visits_idle {α β : Type} {f : State × β → α → State × β} (visit : ∀ s n a, State.Idles s (f (s, n) a).1)
    (l : List α) (s : State) (n : β) : s.Idles (l.foldl f (s, n)).1 := by
  induction l generalizing s n with
  | nil => exact idles_refl s
  | cons a rest ih => exact (visit s n a).trans (ih _ _)

theorem clearVisit_idles (s : State) (n : ClearCounts) (k : Clip) : s.Idles (clearVisit (s, n) k).1 := by
  cases kept : s.keepsClip k with
  | true =>
    rw [clearVisit_kept kept]
    exact idles_refl s
  | false =>
    have unused : (s.users k.id).isEmpty = true := by simpa using (Bool.or_eq_false_iff.mp kept).2
    have idles := removeClip_idles unused
    rw [(removeClip_eq s k).1] at idles
    rw [clearVisit_removed kept]
    exact idles

theorem clearBank_idles (s : State) (bank : Nat) : s.Idles (s.clearBank bank).1 := by
  have visits := visits_idle clearVisit_idles (s.bankClips bank) s { removed := 0, kept := 0, entries := 0 }
  unfold State.clearBank
  dsimp only
  split
  · exact visits.trans (raise_idles _ _)
  · exact visits

theorem clearBank_acts (b : Byte) (s : State) : (clearBank b s).leads State.Acts s := by
  refine leads_onBank fun bank => ?_
  unfold clearBankOn
  split
  · trivial
  · exact State.Idles.acts (s := s) (clearBank_idles s _)

theorem clearAllVisit_idles (s : State) (n : ClearAllCounts) (bank : Fin 16) :
    s.Idles (clearAllVisit (s, n) bank).1 := by
  unfold clearAllVisit
  split
  · exact idles_refl s
  · exact clearBank_idles s _

theorem clearAll_acts (u : Unit) (s : State) : (clearAll u s).leads State.Acts s :=
  State.Idles.acts (s := s)
    (visits_idle clearAllVisit_idles allBanks s { removed := 0, kept := 0, passedOver := 0, entries := 0 })

/-! ## The run log and the queries of the status (R176, R177, R184, R186) -/

theorem readRunlog_acts (b : Byte) (s : State) : (readRunlog b s).leads State.Acts s := by
  unfold readRunlog
  split
  · refine State.Idles.acts (s := s) { works := { upholds := { runLog := fun size => ?_ } } }
    exact (List.length_drop.trans_le (Nat.sub_le _ _)).trans size
  · trivial

theorem flushRunlog_acts (u : Unit) (s : State) : (flushRunlog u s).leads State.Acts s :=
  State.Idles.acts (s := s) { works := { upholds := { runLog := fun _ => Nat.zero_le _ } } }

theorem readFaults_acts (u : Unit) (s : State) : (readFaults u s).leads State.Acts s := acts_refl s

end Sys2Proof.Machine
end

section
/-! What a reclaim and a discard do to the clips and the channels (R6, R22, R23, R91, R135), as operations of a block:
each works and tells what it changes. -/

namespace Sys2Proof.Machine
open Sys2Proof

/-! ## Clips reached -/

section reached

variable {s : State} {f : Clip → Angle → Option (Angle × TrimCase)}

/-- A clip reached keeps its id and its play settings. -/
theorem reachedBy_settings (k : Clip) :
    (k.reachedBy f).speed = k.speed ∧ (k.reachedBy f).bounce = k.bounce := by
  unfold Clip.reachedBy
  split
  · exact ⟨rfl, rfl⟩
  · exact ⟨rfl, rfl⟩

/-- A table whose clips stand for those of s one for one, with ids and play settings from it. -/
theorem clipTable_idles {clips : List Clip} (ids : clips.map (·.id) = s.clips.map (·.id))
    (settings : ∀ d ∈ clips, ∃ k ∈ s.clips, d.speed = k.speed ∧ d.bounce = k.bounce) :
    s.Idles { s with clips := clips } := by
  refine { works := { upholds := { speeds := fun law => ⟨law.1, fun d mem => ?_, law.2.2⟩, tables := fun law => ?_ } } }
  · obtain ⟨k, old, speed, bounce⟩ := settings d mem
    rw [speed, bounce]
    exact law.2.1 k old
  · obtain ⟨locks, order, low, once⟩ := law
    refine ⟨locks, by rw [ids]; exact order, fun d mem => ?_, once⟩
    have named : d.id ∈ s.clips.map (·.id) := ids ▸ List.mem_map_of_mem mem
    obtain ⟨k, old, same⟩ := List.mem_map.mp named
    exact same ▸ low k old

theorem reachTable_idles (f : Clip → Angle → Option (Angle × TrimCase)) (s : State) :
    s.Idles { s with clips := s.clips.foldl (reachTable f) s.clips } := by
  have table : ∀ ks ⊆ s.clips, ∀ cs : List Clip,
      (∀ d ∈ cs, ∃ k ∈ s.clips, d.speed = k.speed ∧ d.bounce = k.bounce) →
      (ks.foldl (reachTable f) cs).map (·.id) = cs.map (·.id) ∧
        ∀ d ∈ ks.foldl (reachTable f) cs, ∃ k ∈ s.clips, d.speed = k.speed ∧ d.bounce = k.bounce := by
    intro ks
    induction ks with
    | nil => exact fun _ cs known => ⟨rfl, known⟩
    | cons k rest ih =>
      intro within cs known
      obtain ⟨mem, later⟩ := List.cons_subset.mp within
      have one : (reachTable f cs k).map (·.id) = cs.map (·.id) ∧
          ∀ d ∈ reachTable f cs k, ∃ k ∈ s.clips, d.speed = k.speed ∧ d.bounce = k.bounce := by
        unfold reachTable
        split
        · refine ⟨?_, fun d hd => ?_⟩
          · rw [List.map_map]
            refine List.map_congr_left fun d _ => ?_
            dsimp only [Function.comp_apply]
            split
            · next same => exact same.symm
            · rfl
          · obtain ⟨old, held, rfl⟩ := List.mem_map.mp hd
            split
            · exact ⟨k, mem, reachedBy_settings k⟩
            · exact known old held
        · exact ⟨rfl, known⟩
      obtain ⟨ids, settings⟩ := ih later _ one.2
      exact ⟨ids.trans one.1, settings⟩
  obtain ⟨ids, settings⟩ := table s.clips (List.Subset.refl _) s.clips fun d mem => ⟨d, mem, rfl, rfl⟩
  exact clipTable_idles ids settings

theorem raises_idles (s : State) (bodies : List ReportBody) : s.Idles (bodies.foldl State.raise s) := by
  induction bodies generalizing s with
  | nil => exact idles_refl s
  | cons b rest ih => exact (raise_idles s b).trans (ih _)

/-- Clips reached one after the other. -/
theorem reachClips_idles (x : TrainId) (range : TrimRange) (s : State) (lost : List (Nat × Nat)) :
    s.Idles (s.clips.foldl (reachClip x range f) (s, lost)).1 := by
  rw [reachClips_eq]
  have table := reachTable_idles f s
  have raised := raises_idles { s with clips := s.clips.foldl (reachTable f) s.clips }
    ((s.clips.filter (Clip.isReached f)).map (Clip.reachReport f x range))
  rw [raises_eq, raises_reports_congr (s := s) (t := { s with clips := s.clips.foldl (reachTable f) s.clips }) _ rfl
    rfl] at raised
  exact table.trans raised

end reached

/-! ## Channels visited one after the other -/

/-- Operations that each work, one after the other. -/
theorem works_foldl {α : Type} {op : State → α → State} (each : ∀ s a, State.Works s (op s a)) (l : List α) (s : State) :
    s.Works (l.foldl op s) := by
  induction l generalizing s with
  | nil => exact works_refl s
  | cons a rest ih => exact (each s a).trans (ih _)

theorem idles_foldl {α : Type} {op : State → α → State} (each : ∀ s a, State.Idles s (op s a)) (l : List α) (s : State) :
    s.Idles (l.foldl op s) := by
  induction l generalizing s with
  | nil => exact idles_refl s
  | cons a rest ih => exact (each s a).trans (ih _)

theorem pushHead_idles (x : TrainId) (a b next : Nat) (s : State) (c : ChannelId) :
    s.Idles (s.pushHead x a b next c) := by
  unfold State.pushHead
  dsimp only
  split
  · exact State.Idles.trans setChannel_idles (raise_idles _ _)
  · exact idles_refl s

theorem dropMarks_idles (x : TrainId) (s : State) (c : ChannelId) :
    s.Idles (s.setChannel c ((s.channel c).dropMarks x)) := setChannel_idles

/-- The angle-loss handling of a channel on a clip, which no follower is (R91, R155). -/
theorem loseAngle_acts {s : State} {c : ChannelId} {id i : Nat} (x : TrainId) (next : Nat)
    (on : (s.channel c).source = .clip id i) : s.Acts (s.loseAngle x next c) := by
  refine playsOn_acts (playsOn_cut_enter_lawful _ _ (fun law st => ?_) (by decide) (by decide) (by decide) (by simp)
    (by simp))
  have train := ((law.1 c).2.1 st).2.1
  simp [on, Source.isTrain] at train

theorem loseAngles_works (x : TrainId) (next : Nat) (s : State) (lost : Nat × Nat) :
    s.Works (s.loseAngles x next lost) := by
  refine works_foldl (fun t c => ?_) allChannels s
  split
  · next on => exact (loseAngle_acts x next on).works
  · exact works_refl t

/-- A follower emptied by a discard leaves its gang in the same operation. -/
theorem unload_leaveGang_eq (s : State) {l c : ChannelId} (pair : leaderOf c = some l) (cause : Cause)
    (o : RunOutcome) : (s.leaveGang c).unloadChannel c cause o =
      (s.setRole l .noGang).played c { (s.channel c).emptied with role := .noGang }
        { s.queue c with playing := false, session := none } (leaveArm (s.channel c).state .idle)
        (s.cutNotes c o (s.channel c).emptied cause) s.freeReads := by
  have ne : l ≠ c := leaderOf_ne pair
  have left : s.leaveGang c = (s.setRole c .noGang).setRole l .noGang := by
    unfold State.leaveGang
    rw [pair]
  have own : (s.leaveGang c).channel c = { s.channel c with role := .noGang } := by
    rw [left]
    unfold State.setRole
    rw [setChannel_channel_ne _ _ _ ne.symm, setChannel_channel_self]
  have notes : ∀ new : Channel, new.state = .idle → new.source = .noSource → new.head = 0 →
      (s.leaveGang c).cutNotes c o new cause = s.cutNotes c o (s.channel c).emptied cause := by
    intro new state source head
    unfold State.cutNotes State.changeReport
    rw [own, state, source, head, left]
    rfl
  have queue : (s.leaveGang c).queue c = s.queue c := by rw [left]; rfl
  have reads : (s.leaveGang c).freeReads = s.freeReads := by rw [left]; rfl
  rw [unloadChannel_eq_played, own, queue, reads]
  dsimp only
  rw [notes _ rfl rfl rfl, left]
  have lead : (s.setRole c .noGang).setRole l .noGang = (s.setChannel c { s.channel c with role := .noGang }).setChannel
      l { s.channel l with role := .noGang } := by
    unfold State.setRole
    rw [setChannel_channel_ne _ _ _ ne]
  rw [lead, ← played_setChannel ne, setChannel_eq_played (s := s) (c := c), played_played, played_setChannel ne]
  rfl

theorem followerOf_of_leaderOf {l c : ChannelId} (pair : leaderOf c = some l) : followerOf l = some c := by
  revert l c
  decide

/-- A follower emptied ends its pair, told with the session cut. -/
theorem emptied_pairs (s : State) (c : ChannelId) : s.Pairs c .noGang { (s.channel c).emptied with role := .noGang }
    { s.queue c with playing := false, session := none }
    (s.cutNotes c .aborted (s.channel c).emptied .trainDiscard) where
  fits := ⟨rfl, rfl⟩
  range law := ⟨by simp [Channel.emptied, inSpeedRange], by simp [Channel.emptied, inSpeedRange], (law.1 c).2.2⟩
  entries := rfl
  playing on := absurd on Bool.false_ne_true
  gang := .inr ⟨rfl, by simp [Channel.emptied], rfl, by simp⟩
  told := told_of_changeReport (new := (s.channel c).emptied) .trainDiscard fun b mem => mem_cutNotes mem

theorem discardChannel_works (x : TrainId) (s : State) (c : ChannelId) : s.Works (s.discardChannel x c) := by
  unfold State.discardChannel
  split
  · dsimp only
    split
    · next st =>
      cases pair : leaderOf c with
      | none =>
        have still : s.leaveGang c = s := by
          unfold State.leaveGang
          rw [pair]
        rw [still]
        have alone : ¬s.gangLaw := fun law => by
          have second := ((law.1 c).2.1 st).1
          simp [pair] at second
        have plays : s.PlaysOn (s.unloadChannel c .trainDiscard .aborted) c :=
          playsOn_cut_enter_lawful _ _ (fun law => absurd law alone) (by decide) (by decide) (by decide) (by simp) (by simp)
        exact (playsOn_acts plays).works
      | some l =>
        rw [unload_leaveGang_eq s pair]
        exact (paired_acts (followerOf_of_leaderOf pair) (emptied_pairs s c)).works
    · next free => exact (playsOn_acts (unloadChannel_playsOn free)).works
  · exact works_refl s

/-- Programmes aborted one after the other tell each change. -/
theorem aborts_tells {s t : State} {changed : ChannelId → ReportBody} {cs : List ChannelId}
    (aborts : s.Aborts t changed cs)
    (told : ∀ c, (t.channel c).state ≠ (s.channel c).state ∨ (t.channel c).source ≠ (s.channel c).source →
      c ∈ cs ∧ ∃ x serial cause, changed c =
        .stateChanged c (s.channel c).state (t.channel c).state ⟨(t.channel c).source, x⟩ serial cause) : s.Tells t := by
  obtain ⟨bodies, raised, within⟩ := noted_bodies s (s.abortNotes changed cs)
  refine ⟨bodies, ?_, fun c moved => ?_⟩
  · rw [aborts.rest]
    exact raised
  · obtain ⟨mem, x, serial, cause, report⟩ := told c moved
    refine ⟨_, x, serial, cause, rfl, within _ ?_⟩
    rw [← report]
    exact List.mem_flatMap.mpr ⟨c, mem, List.mem_append_right _ (List.mem_singleton.mpr rfl)⟩

/-! ## Train records written -/

section trains

variable {s : State} {x : TrainId} {r : Train}

theorem setMap_idles (s : State) (x : TrainId) (m : AnchorMap) : s.Idles (s.setMap x m) := {}

/-- A train's record written, of one pool with the one before, and configured as it was. -/
theorem setTrain_poolLaw (pool : r.pool = (s.train x).pool)
    (configured : r.state = .unconfigured ↔ (s.train x).state = .unconfigured) (law : s.poolLaw) :
    (s.setTrain x r).poolLaw := by
  have kept : ∀ y, ((s.setTrain x r).train y).pool = (s.train y).pool ∧
      (((s.setTrain x r).train y).state = .unconfigured ↔ (s.train y).state = .unconfigured) := by
    intro y
    by_cases same : y = x
    · subst same
      rw [setTrain_train_self]
      exact ⟨pool, configured⟩
    · rw [setTrain_train_ne _ _ _ same]
      exact ⟨rfl, Iff.rfl⟩
  obtain ⟨pools, sizes, apart⟩ := law
  refine ⟨fun y => ?_, fun y p => ?_, fun y z p q e => ?_⟩
  · rw [(kept y).1, (kept y).2]; exact pools y
  · rw [(kept y).1]; exact sizes y p
  · rw [(kept y).1, (kept z).1]; exact apart y z p q e

theorem setTrain_upholds (keeps : s.trainLaw → r.chainLaw ∧ (s.setTrain x r).poolLaw) : s.Upholds (s.setTrain x r) where
  trains law := by
    obtain ⟨chain, pools⟩ := keeps law
    refine ⟨fun y => ?_, pools⟩
    by_cases same : y = x
    · subst same
      rw [setTrain_train_self]
      exact chain
    · rw [setTrain_train_ne _ _ _ same]
      exact law.1 y

/-- Record r of train x keeps the pool, the law of the chain, the serial counter from below and the locked extents; and
it is configured as before. -/
structure State.KeepsTrain (s : State) (x : TrainId) (r : Train) : Prop where
  pool : r.pool = (s.train x).pool := by rfl
  configured : s.trainLaw → (r.state = .unconfigured ↔ (s.train x).state = .unconfigured)
  chain : s.trainLaw → r.chainLaw
  counter : (s.train x).serialCounter ≤ r.serialCounter := by exact le_rfl
  locked : s.trainLaw → ∀ e ∈ (s.train x).chain, 0 < lockCount s.locks e.extent → e.extent ∈ r.chain.map (·.extent) :=
    by exact fun _ e mem _ => List.mem_map_of_mem mem
  free : s.trainLaw → ∀ e, r.reserved = some e → 0 < lockCount s.locks e → (s.train x).reserved = some e :=
    by exact fun _ e reserved _ => reserved

theorem setTrain_idles (keeps : s.KeepsTrain x r) : s.Idles (s.setTrain x r) := by
  refine { works := { upholds := setTrain_upholds fun law =>
                        ⟨keeps.chain law, setTrain_poolLaw keeps.pool (keeps.configured law) law.2⟩
                      ring := fun trains _ y => ?_ } }
  by_cases same : y = x
  · subst same
    rw [setTrain_train_self]
    exact ⟨keeps.counter, keeps.locked trains, keeps.free trains⟩
  · rw [setTrain_train_ne _ _ _ same]
    exact ⟨le_rfl, fun e mem _ => List.mem_map_of_mem mem, fun e reserved _ => reserved⟩

end trains

/-! ## The discard of a train's material (R6) -/

section discard

variable {s : State} {x : TrainId}

theorem emptied_upholds (stopped : (s.train x).state = .idle ∨ (s.train x).state = .unconfigured) :
    s.Upholds (s.emptied x) := by
  refine State.Upholds.trans (t := s.setTrain x { s.train x with chain := [], reserved := none, inFlight := none })
    (setTrain_upholds fun law => ⟨?_, setTrain_poolLaw rfl Iff.rfl law.2⟩) (setMap_idles _ x _).works.upholds
  refine ⟨List.Pairwise.nil, fun e mem => absurd mem List.not_mem_nil, fun e mem => absurd mem List.not_mem_nil,
    fun e current => ?_, fun flight => ?_, ?_⟩
  · simp [Train.current] at current
  · simp at flight
  · obtain st | st := stopped <;> simp [st]

theorem discard_channels (s : State) (x : TrainId) : ∃ v : State, (s.emptied x).Idles v ∧ v.Works (s.discard x) := by
  have clips : (s.emptied x).Idles ((s.emptied x).discardClips x) := by
    unfold State.discardClips
    exact reachClips_idles x .wholeTrain (s.emptied x) []
  exact ⟨_, clips.trans (idles_foldl (dropMarks_idles x) allChannels _), works_foldl (discardChannel_works x) allChannels _⟩

/-- A discard upholds the laws and leaves the alarm (R6). -/
theorem discard_upholds (stopped : (s.train x).state = .idle ∨ (s.train x).state = .unconfigured) :
    s.Upholds (s.discard x) := by
  obtain ⟨v, idles, works⟩ := discard_channels s x
  exact (emptied_upholds stopped).trans (idles.works.upholds.trans works.upholds)

/-- The changes of the channels a discard reaches are told. -/
theorem discard_tells (s : State) (x : TrainId) : s.Tells (s.discard x) := by
  obtain ⟨v, parts, marks, aborts, channels⟩ := discard_parts s x
  have kept : ∀ c, (v.channel c).state = (s.channel c).state ∧ (v.channel c).source = (s.channel c).source := fun c => by
    rw [marks]
    exact ⟨rfl, rfl⟩
  have rests : s.Rests v := ⟨⟨s.discardReports x, by rw [parts]; rfl⟩, kept⟩
  have time : v.time = s.time := by rw [parts]; rfl
  have tells : v.Tells (s.discard x) := by
    refine aborts_tells aborts fun c moved => ?_
    rw [channels c] at moved ⊢
    by_cases on : v.sourceOn x c = true
    · rw [if_pos on]
      exact ⟨List.mem_filter.mpr ⟨mem_allChannels c, on⟩, _, _, _, rfl⟩
    · rw [if_neg on] at moved
      simp [State.ungangedBy] at moved
  exact tellsFrom_trans time rests.tells tells fun c before _ origin => origin.trans (kept c).1

end discard

end Sys2Proof.Machine
end

section
/-! The ring (R10 to R25): what a reclaim, a reservation, a start, a frame opened and a frame done do to the chains, as
operations of a block. -/

namespace Sys2Proof.Machine
open Sys2Proof

/-! ## Chains -/

/-- The law of a chain but for the train's state (R2, R3): its entries against the serial counter and the reserved
extent. -/
def chainOrder (chain : List ChainEntry) (counter : Nat) (reserved : Option Nat) : Prop :=
  chain.Pairwise (fun a b => a.first + a.fill ≤ b.first ∧ a.extent ≠ b.extent) ∧
  (∀ e ∈ chain, e.fill ≤ 64 ∧ e.first + e.fill ≤ counter ∧ reserved ≠ some e.extent) ∧
  (∀ e ∈ chain.dropLast, 1 ≤ e.fill) ∧ ∀ e, chain.getLast? = some e → e.first + e.fill = counter

/-- What the law of a train's chain asks of its state (R24). -/
def Train.stateFits (t : Train) : Prop :=
  match t.state with
  | .unconfigured => t.chain = []
  | .idle => True
  | .recording => ∃ e, t.current = some e ∧ e.fill < 64
  | .stalled => ∀ e, t.current = some e → e.fill = 64

theorem chainLaw_iff {t : Train} : t.chainLaw ↔ chainOrder t.chain t.serialCounter t.reserved ∧
    (t.inFlight.isSome = true → t.state = .recording) ∧ t.stateFits := by
  unfold Train.chainLaw chainOrder Train.stateFits Train.current
  simp only [and_assoc] <;> rfl

/-- What the state asks is kept with the state and the current entry. -/
theorem stateFits_of_same {t t' : Train} (state : t'.state = t.state) (current : t'.current = t.current)
    (empty : t.chain = [] → t'.chain = []) (fits : t.stateFits) : t'.stateFits := by
  unfold Train.stateFits at fits ⊢
  rw [state, current]
  cases st : t.state with
  | unconfigured =>
    rw [st] at fits
    exact empty fits
  | _ => rw [st] at fits; exact fits

section order

variable {l : List ChainEntry} {n c : Nat} {r : Option Nat}

theorem chainOrder_nil (n : Nat) (r : Option Nat) : chainOrder [] n r :=
  ⟨List.Pairwise.nil, fun _ mem => absurd mem List.not_mem_nil, fun _ mem => absurd mem List.not_mem_nil,
    fun _ last => absurd last (by simp)⟩

/-- A chain in order, its last entry apart. -/
theorem chainOrder_concat {e : ChainEntry} : chainOrder (l ++ [e]) n r ↔
    (l.Pairwise (fun a b => a.first + a.fill ≤ b.first ∧ a.extent ≠ b.extent) ∧
      ∀ d ∈ l, d.first + d.fill ≤ e.first ∧ d.extent ≠ e.extent ∧ 1 ≤ d.fill ∧ d.fill ≤ 64 ∧ r ≠ some d.extent) ∧
    e.fill ≤ 64 ∧ e.first + e.fill = n ∧ r ≠ some e.extent := by
  unfold chainOrder
  rw [List.pairwise_append, List.dropLast_concat, List.getLast?_concat]
  constructor
  · rintro ⟨⟨before, -, last⟩, each, filled, ends⟩
    obtain ⟨full, low, apart⟩ := each e (by simp)
    refine ⟨⟨before, fun d mem => ?_⟩, full, ends e rfl, apart⟩
    obtain ⟨below, ne⟩ := last d mem e (by simp)
    obtain ⟨full', -, apart'⟩ := each d (by simp [mem])
    exact ⟨below, ne, filled d mem, full', apart'⟩
  · rintro ⟨⟨before, each⟩, full, ends, apart⟩
    refine ⟨⟨before, List.pairwise_singleton _ _, fun d mem d' mem' => ?_⟩, fun d mem => ?_, fun d mem => (each d mem).2.2.1,
      fun d same => ?_⟩
    · obtain rfl := List.mem_singleton.mp mem'
      exact ⟨(each d mem).1, (each d mem).2.1⟩
    · obtain mem | rfl : d ∈ l ∨ d = e := by simpa using mem
      · obtain ⟨below, -, -, full', apart'⟩ := each d mem
        exact ⟨full', by omega, apart'⟩
      · exact ⟨full, by omega, apart⟩
    · obtain rfl := Option.some.inj same
      exact ends

/-- An extent that is not the current one taken out. -/
theorem chainOrder_without (order : chainOrder l n r) (other : (l.getLast?).map (·.extent) ≠ some c) :
    chainOrder (l.filter fun d => d.extent != c) n r ∧ (l.filter fun d => d.extent != c).getLast? = l.getLast? := by
  rcases List.eq_nil_or_concat' l with rfl | ⟨pre, e, rfl⟩
  · exact ⟨order, rfl⟩
  · rw [List.getLast?_concat] at other
    have stays : (e.extent != c) = true := by simpa using other
    have kept : (pre ++ [e]).filter (fun d => d.extent != c) = pre.filter (fun d => d.extent != c) ++ [e] := by
      simp [List.filter_append, stays]
    rw [kept]
    obtain ⟨⟨before, each⟩, last⟩ := chainOrder_concat.mp order
    exact ⟨chainOrder_concat.mpr ⟨⟨before.filter _, fun d mem => each d (List.mem_of_mem_filter mem)⟩, last⟩, by simp⟩

/-- An extent that is in no entry appended at the serial counter, and none reserved. -/
theorem chainOrder_append (order : chainOrder l n r) (fresh : ∀ e ∈ l, e.extent ≠ c)
    (filled : ∀ e, l.getLast? = some e → 1 ≤ e.fill) : chainOrder (l ++ [⟨c, n, 0⟩]) n none := by
  obtain ⟨before, each, filled', -⟩ := order
  refine chainOrder_concat.mpr ⟨⟨before, fun d mem => ?_⟩, Nat.zero_le _, rfl, by simp⟩
  obtain ⟨full, low, -⟩ := each d mem
  refine ⟨low, fresh d mem, ?_, full, by simp⟩
  rcases List.eq_nil_or_concat' l with rfl | ⟨pre, e, rfl⟩
  · exact absurd mem List.not_mem_nil
  · rw [List.dropLast_concat] at filled'
    rw [List.getLast?_concat] at filled
    obtain mem | rfl : d ∈ pre ∨ d = e := by simpa using mem
    · exact filled' d mem
    · exact filled d rfl

/-- A frame published into a current extent with room. -/
theorem chainOrder_raise {pre : List ChainEntry} {e : ChainEntry} (order : chainOrder (pre ++ [e]) n r)
    (room : e.fill < 64) : chainOrder (pre ++ [{ e with fill := e.fill + 1 }]) (n + 1) r := by
  obtain ⟨before, full, ends, apart⟩ := chainOrder_concat.mp order
  exact chainOrder_concat.mpr ⟨before, room, by simp only; omega, apart⟩

theorem chainOrder_reserve (order : chainOrder l n r) (fresh : ∀ e ∈ l, e.extent ≠ c) : chainOrder l n (some c) := by
  obtain ⟨before, each, filled, ends⟩ := order
  refine ⟨before, fun e mem => ?_, filled, ends⟩
  obtain ⟨full, low, -⟩ := each e mem
  exact ⟨full, low, fun same => fresh e mem (Option.some.inj same).symm⟩

theorem chainOrder_unreserve (order : chainOrder l n r) : chainOrder l n none := by
  obtain ⟨before, each, filled, ends⟩ := order
  exact ⟨before, fun e mem => ⟨(each e mem).1, (each e mem).2.1, by simp⟩, filled, ends⟩

end order

/-! ## Reclaim (R22, R23) -/

section reclaim

variable {s : State} {x : TrainId}

/-- A retained extent that is not current, and that no clip has locked, leaves the chain (R22). -/
theorem unlinked_idles {e : ChainEntry} (other : (s.train x).current.map (·.extent) ≠ some e.extent)
    (free : lockCount s.locks e.extent = 0) : s.Idles (s.unlinked x e) := by
  have order : s.trainLaw → _ := fun law => chainOrder_without (chainLaw_iff.mp (law.1 x)).1 other
  refine State.Idles.trans (t := s.setTrain x (s.trainWithout x e)) (setTrain_idles {
      configured := fun _ => Iff.rfl, chain := fun law => ?_, locked := fun law d mem locked => ?_ }) (setMap_idles _ x _)
  · obtain ⟨kept, current⟩ := order law
    obtain ⟨-, flight, fits⟩ := chainLaw_iff.mp (law.1 x)
    refine chainLaw_iff.mpr ⟨kept, flight, ?_⟩
    exact stateFits_of_same (t := s.train x) rfl current (fun empty => by simp [State.trainWithout, empty]) fits
  · refine List.mem_map_of_mem (List.mem_filter.mpr ⟨mem, bne_iff_ne.mpr fun same => ?_⟩)
    rw [same, free] at locked
    exact absurd locked (Nat.lt_irrefl 0)

theorem reclaim_acts {e : ChainEntry} (other : (s.train x).current.map (·.extent) ≠ some e.extent)
    (free : lockCount s.locks e.extent = 0) : s.Acts (s.reclaim x e) := by
  obtain ⟨u, cs, parts, pushed, aborts, channels, -⟩ := reclaim_parts s x e
  have kept : ∀ c, (u.channel c).state = (s.channel c).state ∧ (u.channel c).source = (s.channel c).source := by
    intro c
    rw [pushed]
    split <;> exact ⟨rfl, rfl⟩
  have works : s.Works (s.reclaim x e) := by
    have clips : (s.unlinked x e).Idles ((s.unlinked x e).reclaimClips x e.first e.last).1 := by
      unfold State.reclaimClips
      exact reachClips_idles x _ (s.unlinked x e) []
    have heads := clips.trans (idles_foldl (pushHead_idles x e.first e.last (s.serialAfter x e)) allChannels _)
    exact ((unlinked_idles other free).trans heads).works.trans
      (works_foldl (loseAngles_works x (s.serialAfter x e)) _ _)
  have tells : u.Tells (s.reclaim x e) := by
    refine aborts_tells aborts fun c moved => ?_
    rw [channels c] at moved ⊢
    by_cases losing : c ∈ cs
    · rw [if_pos losing, (kept c).1]
      exact ⟨losing, _, _, _, rfl⟩
    · rw [if_neg losing] at moved
      simp at moved
  have rests : s.Rests u := ⟨⟨s.reachReports x e, by rw [parts]⟩, kept⟩
  have links := (reclaim_frame s x e).2.2.2.2.2.2.1
  exact ⟨works, links.1, tellsFrom_trans (by rw [parts]; rfl) rests.tells tells fun c before _ origin =>
    origin.trans (kept c).1⟩

end reclaim

/-! ## Extents picked, reserved and made current (R20 to R25) -/

section picked

variable {s : State} {x : TrainId} {c : Nat}

/-- A candidate picked: its extent is free, or reclaimed. -/
theorem pick_acts (found : (s.train x).candidate s.locks = some c) : s.Acts (s.pick x c) := by
  obtain ⟨⟨free, -, other⟩, -⟩ := candidate_fits found
  obtain ⟨-, same⟩ | ⟨d, -, rfl, same⟩ := pick_picks s x c
  · rw [same]
    exact acts_refl s
  · rw [same]
    exact reclaim_acts other free

theorem pick_fresh (s : State) (x : TrainId) (c : Nat) : ∀ e ∈ ((s.pick x c).train x).chain, e.extent ≠ c := by
  intro e mem
  rw [(picks_train (pick_picks s x c)).2] at mem
  exact bne_iff_ne.mp (List.mem_filter.mp mem).2

/-- The current extent is none of the candidates, so that it stays when one is picked. -/
theorem pick_current (found : (s.train x).candidate s.locks = some c) :
    ((s.pick x c).train x).current = (s.train x).current := by
  obtain ⟨⟨-, -, other⟩, -⟩ := candidate_fits found
  unfold Train.current at other ⊢
  rw [(picks_train (pick_picks s x c)).2]
  rcases List.eq_nil_or_concat' (s.train x).chain with empty | ⟨pre, e, chain⟩
  · rw [empty]; rfl
  · rw [chain, List.getLast?_concat] at other
    have stays : (e.extent != c) = true := by simpa using other
    rw [chain]
    simp [List.filter_append, stays]

theorem reserve_acts (s : State) (x : TrainId) : s.Acts (s.reserve x) := by
  cases found : (s.train x).candidate s.locks with
  | none => rw [reserve_none found]; exact acts_refl s
  | some c =>
    rw [reserve_some found]
    have locks : (s.pick x c).locks = s.locks := (picks_frame (pick_picks s x c)).1
    obtain ⟨⟨free, -, -⟩, -⟩ := candidate_fits found
    refine (pick_acts found).trans_idles (setTrain_idles {
      configured := fun _ => Iff.rfl, chain := fun law => ?_, free := fun _ e reserved locked => ?_ })
    · obtain ⟨order, flight, fits⟩ := chainLaw_iff.mp (law.1 x)
      exact chainLaw_iff.mpr ⟨chainOrder_reserve order (pick_fresh s x c), flight, fits⟩
    · obtain rfl := Option.some.inj reserved
      rw [locks, free] at locked
      exact absurd locked (Nat.lt_irrefl 0)

/-- Extent c made current in RECORDING, from a record whose current extent, where there is one, holds a frame. -/
theorem current_keeps {r : Train} (pool : r.pool = (s.train x).pool) (state : r.state = .recording)
    (configured : (s.train x).state ≠ .unconfigured) (counter : r.serialCounter = (s.train x).serialCounter)
    (chain : r.chain = (s.train x).chain ++ [⟨c, (s.train x).serialCounter, 0⟩]) (reserved : r.reserved = none)
    (fresh : ∀ e ∈ (s.train x).chain, e.extent ≠ c)
    (filled : s.trainLaw → ∀ e, (s.train x).current = some e → 1 ≤ e.fill) : s.KeepsTrain x r where
  pool := pool
  configured _ := iff_of_false (by simp [state]) configured
  chain law := by
    refine chainLaw_iff.mpr ⟨?_, fun _ => state, ?_⟩
    · rw [chain, counter, reserved]
      exact chainOrder_append (chainLaw_iff.mp (law.1 x)).1 fresh (filled law)
    · unfold Train.stateFits Train.current
      rw [state, chain, List.getLast?_concat]
      exact ⟨_, rfl, Nat.zero_lt_succ _⟩
  counter := counter.ge
  locked _ e mem _ := by
    rw [chain]
    exact List.mem_map_of_mem (List.mem_append_left _ mem)
  free _ e same := by simp [reserved] at same

theorem pick_state (s : State) (x : TrainId) (c : Nat) : ((s.pick x c).train x).state = (s.train x).state := by
  rw [(picks_train (pick_picks s x c)).1]

theorem stall_idles {r : Train} (keeps : s.KeepsTrain x r) :
    s.Idles (((s.setTrain x r).raise (.stalled x)).recordFault .trainStalled (some x.val)) :=
  (setTrain_idles keeps).trans ((raise_idles _ _).trans (recordFault_idles _ _ _))

end picked

/-! ## START_TRAIN and STOP_TRAIN (R10, R11) -/

section start

variable {s : State} {x : TrainId}

theorem startFresh_acts (idle : (s.train x).state = .idle)
    (full : ∀ e, (s.train x).current = some e → ¬e.fill < 64) : s.Acts (s.startFresh x) := by
  cases found : (s.train x).candidate s.locks with
  | none =>
    rw [startFresh_none found]
    refine (stall_idles { configured := fun _ => by simp [idle], chain := fun law => ?_ }).acts
    obtain ⟨order, flight, -⟩ := chainLaw_iff.mp (law.1 x)
    refine chainLaw_iff.mpr ⟨order, fun inFlight => ?_, fun e current => ?_⟩
    · simp [flight inFlight] at idle
    · have := (order.2.1 e (List.mem_of_getLast? current)).1
      have := full e current
      omega
  | some c =>
    rw [startFresh_some found]
    refine (pick_acts found).trans_idles (setTrain_idles ?_)
    refine current_keeps rfl rfl (by rw [pick_state, idle]; simp) rfl ?_ rfl (pick_fresh s x c) fun _ e current => ?_
    · rw [picks_serialCounter (pick_picks s x c)]
    · rw [pick_current found] at current
      have := full e current
      omega

theorem resumeTrain_acts {e : ChainEntry} (idle : (s.train x).state = .idle)
    (current : (s.train x).current = some e) (room : e.fill < 64) : s.Acts (s.resumeTrain x e.fill) := by
  have records : s.Idles (s.setTrain x { s.train x with state := .recording, firstFrame := true }) := by
    refine setTrain_idles { configured := fun _ => by simp [idle], chain := fun law => ?_ }
    exact chainLaw_iff.mpr ⟨(chainLaw_iff.mp (law.1 x)).1, fun _ => rfl, e, current, room⟩
  rw [resumeTrain_eq]
  dsimp only
  split
  · exact records.trans_acts (reserve_acts _ x)
  · exact records.acts

theorem startTrain_acts (b : Byte) (s : State) : (startTrain b s).leads State.Acts s := by
  unfold startTrain
  split
  · trivial
  · next x _ =>
    split
    · trivial
    · exact acts_refl s
    · exact acts_refl s
    · next idle =>
      split
      · next e current =>
        split
        · next room => exact resumeTrain_acts idle current room
        · next full =>
          refine startFresh_acts idle fun d same => ?_
          rw [current] at same
          exact Option.some.inj same ▸ full
      · next none => exact startFresh_acts idle fun e current => by simp [none] at current

theorem stopTrain_acts (b : Byte) (s : State) : (stopTrain b s).leads State.Acts s := by
  unfold stopTrain
  split
  · trivial
  · next x _ =>
    split
    · trivial
    · exact acts_refl s
    · next configured _ =>
      refine State.Idles.acts (s := s) (setTrain_idles {
        configured := fun _ => iff_of_false (by simp) configured, chain := fun law => ?_, free := fun _ _ none => ?_ })
      · exact chainLaw_iff.mpr ⟨chainOrder_unreserve (chainLaw_iff.mp (law.1 x)).1, by simp, trivial⟩
      · simp at none

end start

end Sys2Proof.Machine
end

section
/-! Frame announcements (R12 to R19), and the commands that set a train up or take it down (R6 to R9), as operations. -/

namespace Sys2Proof.Machine
open Sys2Proof

/-! ## FRAME_OPEN -/

section opens

variable {s : State} {x : TrainId}

theorem answerIngest_idles (s : State) (tag : Byte) (a : IngestAnswer) : s.Idles (s.answerIngest tag a) := {}

theorem serialLimitDrop_acts (tag train : Byte) (configured : (s.train x).state ≠ .unconfigured) :
    s.Acts (s.serialLimitDrop x tag train) := by
  unfold State.serialLimitDrop
  refine State.Idles.acts (State.Idles.trans (answerIngest_idles s tag _) (State.Idles.trans (setTrain_idles {
    configured := fun _ => iff_of_false (by simp) configured, chain := fun law => ?_, free := fun _ _ none => ?_ })
      (State.Idles.trans (raise_idles _ _) (recordFault_idles _ _ _))))
  · exact chainLaw_iff.mpr ⟨chainOrder_unreserve (chainLaw_iff.mp (law.1 x)).1, by simp, trivial⟩
  · simp at none

theorem grant_idles (tag train : Byte) (label : TimecodeField) (recording : (s.train x).state = .recording) :
    s.Idles (s.grant x tag train label) := by
  have keeps : ∀ f, s.KeepsTrain x { s.train x with inFlight := some f } := fun f =>
    { configured := fun _ => Iff.rfl
      chain := fun law => by
        obtain ⟨order, -, fits⟩ := chainLaw_iff.mp (law.1 x)
        exact chainLaw_iff.mpr ⟨order, fun _ => recording, fits⟩ }
  unfold State.grant
  dsimp only
  split
  · exact (setTrain_idles (keeps _)).trans (answerIngest_idles _ tag _)
  · exact idles_refl s

theorem openRecording_acts (tag train : Byte) (label : TimecodeField) (recording : (s.train x).state = .recording) :
    s.Acts (s.openRecording x tag train label) := by
  unfold State.openRecording
  dsimp only
  split
  · obtain ⟨faults, reports, alarm, recorded⟩ := recordFault_eq s .ingestSequence (some train.toNat)
    have same : (s.recordFault .ingestSequence (some train.toNat)).train x = s.train x := by
      rw [recorded]
      rfl
    exact ((recordFault_idles s _ _).trans (grant_idles tag train label (by rw [same]; exact recording))).acts
  · exact (grant_idles tag train label recording).acts

theorem openStalled_acts (tag train : Byte) (label : TimecodeField) (stalled : (s.train x).state = .stalled) :
    s.Acts (s.openStalled x tag train label) := by
  cases found : (s.train x).candidate s.locks with
  | none =>
    unfold State.openStalled
    rw [found]
    exact (answerIngest_idles s tag _).acts
  | some c =>
    rw [openStalled_some found]
    refine (pick_acts found).trans_idles (State.Idles.trans (setTrain_idles ?_)
      (State.Idles.trans (raise_idles _ _) (grant_idles tag train label ?_)))
    · refine current_keeps rfl rfl (by rw [pick_state, stalled]; simp) rfl rfl rfl (pick_fresh s x c)
        fun law e current => ?_
      have fits := (chainLaw_iff.mp (law.1 x)).2.2
      unfold Train.stateFits at fits
      rw [pick_state, stalled] at fits
      exact (fits e current).ge.trans' (by decide)
    · obtain ⟨r, raised⟩ := raise_eq ((s.pick x c).setTrain x (((s.pick x c).train x).resumedInto c)) (.resumed x c)
      rw [raised]
      exact congrArg Train.state (setTrain_train_self ..)

theorem frameOpen_acts (tag train : Byte) (label : TimecodeField) (s : State) :
    s.Acts (s.frameOpen tag train label) := by
  unfold State.frameOpen
  split
  · exact (answerIngest_idles s tag _).acts
  · next x _ =>
    split
    · next recording =>
      split
      · exact serialLimitDrop_acts tag train (by simp [recording])
      · exact openRecording_acts tag train label recording
    · next stalled =>
      split
      · exact serialLimitDrop_acts tag train (by simp [stalled])
      · exact openStalled_acts tag train label stalled
    · exact (answerIngest_idles s tag _).acts
    · exact (answerIngest_idles s tag _).acts

end opens

/-! ## FRAME_DONE -/

section done

variable {s : State} {x : TrainId} {f : InFlight}

/-- A frame published, with the train's record written as the reservation points leave it. -/
theorem publishes_setTrain_idles {r : Train} (keeps : s.KeepsTrain x r) :
    s.Idles ((s.publishes x f).setTrain x r) := by
  have written : ∀ (m : Vector AnchorMap 16) (bodies : List ReportBody), s.Idles { s.setTrain x r with
      maps := m, reports := (bodies.foldl State.raise s).reports } := by
    intro m bodies
    have mapped : (s.setTrain x r).Idles { s.setTrain x r with maps := m } := {}
    have raised := raises_idles { s.setTrain x r with maps := m } bodies
    rw [raises_eq, raises_reports_congr (s := s) (t := { s.setTrain x r with maps := m }) _ rfl rfl] at raised
    exact (setTrain_idles keeps).trans (mapped.trans raised)
  have same : (s.publishes x f).setTrain x r = { s.setTrain x r with
      maps := (s.publishes x f).maps, reports := (s.publishes x f).reports } := by
    simp [State.publishes, State.setTrain]
  rw [same]
  exact written _ _

theorem publishes_train : (s.publishes x f).train x = (s.train x).published := by
  simp [State.publishes, State.train]

theorem published_chain {pre : List ChainEntry} {e : ChainEntry} (chain : (s.train x).chain = pre ++ [e]) :
    (s.train x).published.chain = pre ++ [{ e with fill := e.fill + 1 }] := by
  unfold Train.published
  rw [chain, raiseFill_append]

/-- What every record written after a publication keeps: the pool, the locked extents, and the train configured. -/
theorem published_keeps {r : Train} {pre : List ChainEntry} {e : ChainEntry} (flight : (s.train x).inFlight = some f)
    (chain : (s.train x).chain = pre ++ [e]) (more : List ChainEntry) (pool : r.pool = (s.train x).pool)
    (state : r.state = (s.train x).state ∨ r.state = .stalled)
    (chain' : r.chain = pre ++ { e with fill := e.fill + 1 } :: more)
    (counter : r.serialCounter = (s.train x).serialCounter + 1)
    (reserved : r.reserved = (s.train x).reserved ∨ r.reserved = none)
    (law : e.fill < 64 → (s.train x).state = .recording →
      chainOrder (pre ++ [{ e with fill := e.fill + 1 }]) ((s.train x).serialCounter + 1) (s.train x).reserved →
      r.chainLaw) : s.KeepsTrain x r where
  pool := pool
  configured trains := by
    have recording := (chainLaw_iff.mp (trains.1 x)).2.1 (by rw [flight]; rfl)
    obtain same | stalled := state
    · rw [same]
    · exact iff_of_false (by simp [stalled]) (by simp [recording])
  chain trains := by
    obtain ⟨order, inFlight, fits⟩ := chainLaw_iff.mp (trains.1 x)
    have recording := inFlight (by rw [flight]; rfl)
    unfold Train.stateFits Train.current at fits
    rw [recording, chain, List.getLast?_concat] at fits
    obtain ⟨d, same, room⟩ := fits
    obtain rfl := Option.some.inj same
    rw [chain] at order
    exact law room recording (chainOrder_raise order room)
  counter := by omega
  locked _ d mem _ := by
    rw [chain']
    rw [chain] at mem
    obtain mem | rfl : d ∈ pre ∨ d = e := by simpa using mem
    · exact List.mem_map_of_mem (List.mem_append_left _ mem)
    · simp
  free _ d same _ := by
    obtain kept | none := reserved
    · exact kept ▸ same
    · simp [none] at same

/-- A frame published that leaves room in the current extent. -/
theorem publishes_idles (flight : (s.train x).inFlight = some f)
    (room : ∀ e, (s.train x).published.current = some e → e.fill ≠ 64) : s.Idles (s.publishes x f) := by
  have written : (s.publishes x f).setTrain x (s.train x).published = s.publishes x f := by
    simp [State.publishes, State.setTrain]
  rw [← written]
  refine publishes_setTrain_idles ?_
  rcases List.eq_nil_or_concat' (s.train x).chain with empty | ⟨pre, e, chain⟩
  · refine { configured := fun _ => Iff.rfl, chain := fun law => ?_, counter := Nat.le_succ _, locked := fun _ d mem _ => ?_ }
    · obtain ⟨-, inFlight, fits⟩ := chainLaw_iff.mp (law.1 x)
      have recording := inFlight (by rw [flight]; rfl)
      unfold Train.stateFits Train.current at fits
      rw [recording, empty] at fits
      obtain ⟨d, same, -⟩ := fits
      simp at same
    · rw [empty] at mem
      exact absurd mem List.not_mem_nil
  · have current : (s.train x).published.current = some { e with fill := e.fill + 1 } := by
      unfold Train.current
      rw [published_chain chain, List.getLast?_concat]
    refine published_keeps flight chain [] rfl (.inl rfl) (published_chain chain) rfl (.inl rfl)
      fun low recording order => chainLaw_iff.mpr ⟨?_, fun none => by simp [Train.published] at none, ?_⟩
    · rw [published_chain chain]
      exact order
    · have state : (s.train x).published.state = .recording := recording
      have short := room _ current
      unfold Train.stateFits
      rw [state]
      refine ⟨_, current, ?_⟩
      simp only at short ⊢
      omega

/-- A full extent: the reserved one becomes current, or the train stalls (R24). -/
theorem publishes_extentChange_idles {pre : List ChainEntry} {e : ChainEntry} (flight : (s.train x).inFlight = some f)
    (chain : (s.train x).chain = pre ++ [e]) (full : e.fill + 1 = 64) :
    s.Idles ((s.publishes x f).extentChange x) := by
  have train := publishes_train (s := s) (x := x) (f := f)
  cases reserved : (s.train x).reserved with
  | some c =>
    rw [extentChange_some (c := c) (by rw [train]; exact reserved)]
    unfold State.makeCurrent
    rw [train]
    refine publishes_setTrain_idles (published_keeps flight chain [⟨c, (s.train x).serialCounter + 1, 0⟩] rfl (.inl rfl)
      ?_ rfl (.inr rfl) fun low recording order => chainLaw_iff.mpr ⟨?_, fun none => by simp [Train.published] at none, ?_⟩)
    · simp only [published_chain chain]
      simp [Train.published]
    · simp only [published_chain chain]
      refine chainOrder_append order (fun d mem same => ?_) fun d last => ?_
      · exact (order.2.1 d mem).2.2 (by rw [reserved, same])
      · rw [List.getLast?_concat] at last
        exact Option.some.inj last ▸ Nat.le_add_left 1 _
    · unfold Train.stateFits Train.current
      simp only [Train.published, recording, List.getLast?_concat]
      exact ⟨_, rfl, Nat.zero_lt_succ _⟩
  | none =>
    rw [extentChange_none (by rw [train]; exact reserved)]
    unfold State.stall
    rw [train]
    have keeps : s.KeepsTrain x { (s.train x).published with state := .stalled } := by
      refine published_keeps flight chain [] rfl (.inr rfl) (published_chain chain) rfl (.inl rfl)
        fun low recording order => chainLaw_iff.mpr ⟨?_, fun none => by simp [Train.published] at none, ?_⟩
      · simp only [published_chain chain]
        exact order
      · unfold Train.stateFits Train.current
        simp only [published_chain chain, List.getLast?_concat]
        exact fun d same => Option.some.inj same ▸ full
    exact (publishes_setTrain_idles keeps).trans ((raise_idles _ _).trans (recordFault_idles _ _ _))

theorem publish_acts (flight : (s.train x).inFlight = some f) : s.Acts (s.publish x f) := by
  have train := publishes_train (s := s) (x := x) (f := f)
  rw [publish_eq]
  cases current : (s.train x).published.current with
  | none =>
    have still : (s.publishes x f).comparePoints x = s.publishes x f := by
      unfold State.comparePoints
      rw [train, current]
    rw [still]
    exact (publishes_idles flight (by simp [current])).acts
  | some d =>
    by_cases full : d.fill = 64
    · rw [comparePoints_full (by rw [train]; exact current) full]
      rcases List.eq_nil_or_concat' (s.train x).chain with empty | ⟨pre, e, chain⟩
      · simp [Train.current, Train.published, empty, raiseFill] at current
      · unfold Train.current at current
        rw [published_chain chain, List.getLast?_concat] at current
        obtain rfl := Option.some.inj current
        exact (publishes_extentChange_idles flight chain full).acts
    · have published := publishes_idles flight (s := s) (x := x) (f := f) fun e same => by
        rw [current] at same
        exact Option.some.inj same ▸ full
      unfold State.comparePoints
      rw [train, current]
      dsimp only
      rw [if_neg (show ¬d.fill = Config.pagesPerExtent from full)]
      split
      · exact published.trans_acts (reserve_acts _ x)
      · exact published.acts

/-- A frame settled without publication (R19). -/
theorem settled_keeps : s.KeepsTrain x { s.train x with inFlight := none } :=
  { configured := fun _ => Iff.rfl
    chain := fun law => by
      obtain ⟨order, -, fits⟩ := chainLaw_iff.mp (law.1 x)
      exact chainLaw_iff.mpr ⟨order, by simp, fits⟩ }

theorem staleDone_acts (tag train : Byte) (page : Word) (s : State) : s.Acts (s.staleDone tag train page) :=
  ((answerIngest_idles s tag _).trans (recordFault_idles _ _ _)).acts

theorem frameDone_acts (tag train : Byte) (page : Word) (good : Bool) (s : State) :
    s.Acts (s.frameDone tag train page good) := by
  unfold State.frameDone
  split
  · exact staleDone_acts tag train page s
  · next x _ =>
    split
    · next f flight =>
      split
      · dsimp only
        split
        · exact (answerIngest_idles s tag _).trans_acts (publish_acts (f := f) flight)
        · exact ((answerIngest_idles s tag _).trans (setTrain_idles settled_keeps)).acts
      · exact staleDone_acts tag train page s
    · exact staleDone_acts tag train page s

end done

end Sys2Proof.Machine
end

section
/-! What every row obeys: the laws upheld, the alarm line held, the ring kept and the changes told, from the operation of
its block to the lanes begun after it. -/

namespace Sys2Proof.Machine
open Sys2Proof

/-! ## Reports told -/

section told

variable {u : ReportUnit} {b : ReportBody} {r : Report}

/-- A report of this body stands in the queue, or its class has lost one (R183). -/
def ReportUnit.hasTold (u : ReportUnit) (b : ReportBody) : Prop :=
  u.lost[(classIndex b.cls).val] = true ∨ ∃ r ∈ u.queue, r.body = b

theorem lost_set (c : ReportClass) (d : ReportClass) (kept : u.lost[(classIndex d).val] = true) :
    (u.lose c).lost[(classIndex d).val] = true := by
  show (u.lost.set (classIndex c).val true)[(classIndex d).val] = true
  rw [Vector.getElem_set]
  split
  · rfl
  · exact kept

theorem lost_self (c : ReportClass) : (u.lose c).lost[(classIndex c).val] = true := Vector.getElem_set_self ..

theorem mem_of_eraseP {p : Report → Bool} {q : List Report} {v : Report} (found : q.find? p = some v) (mem : r ∈ q) :
    r = v ∨ r ∈ q.eraseP p := by
  obtain ⟨passes, pre, post, rfl, fails⟩ := List.find?_eq_some_iff_append.mp found
  rw [(find?_past (pre := pre) (post := post) (fun b mem => by simpa using fails b mem) passes).2]
  obtain before | same | behind : r ∈ pre ∨ r = v ∨ r ∈ post := by simpa using mem
  · exact .inr (List.mem_append_left _ before)
  · exact .inl same
  · exact .inr (List.mem_append_right _ behind)

/-- A report handed to the queue is told: it joins the queue, or its class loses one. -/
theorem hand_told (u : ReportUnit) (r : Report) : (u.hand r).hasTold r.body := by
  unfold ReportUnit.hand
  split
  · exact .inr ⟨r, by simp, rfl⟩
  · dsimp only
    split
    · split
      · exact .inr ⟨r, by simp, rfl⟩
      · exact .inl (lost_self _)
    · exact .inl (lost_self _)

/-- What has been told stays told: a report displaced leaves its class's lost flag set. -/
theorem hand_keeps (told : u.hasTold b) (r : Report) : (u.hand r).hasTold b := by
  have flagged : ∀ c, (u.lose c).hasTold b := fun c => told.imp (lost_set c _) id
  unfold ReportUnit.hand
  split
  · exact told.imp id fun ⟨v, mem, body⟩ => ⟨v, List.mem_append_left _ mem, body⟩
  · dsimp only
    split
    · split
      · next victim found =>
        obtain lost | ⟨v, mem, rfl⟩ := told
        · exact .inl (lost_set _ _ lost)
        · obtain rfl | stays := mem_of_eraseP found (List.mem_reverse.mpr mem)
          · exact .inl (lost_self _)
          · exact .inr ⟨v, List.mem_append_left _ (List.mem_reverse.mpr stays), rfl⟩
      · exact flagged _
    · exact flagged _

theorem raise_settings (s : State) (b : ReportBody) : (s.raise b).reports.settings = s.reports.settings := by
  unfold State.raise ReportUnit.hand
  dsimp only
  split
  · dsimp only
    split
    · rfl
    · split
      · split <;> rfl
      · rfl
  · rfl

theorem raise_keeps {s : State} (told : s.reports.hasTold b) (d : ReportBody) : (s.raise d).reports.hasTold b := by
  unfold State.raise
  dsimp only
  split
  · exact hand_keeps told _
  · exact told

theorem raise_told {s : State} (enabled : s.reports.settings[(classIndex b.cls).val].enabled = true) :
    (s.raise b).reports.hasTold b := by
  unfold State.raise
  rw [if_pos enabled]
  exact hand_told _ ⟨b, _, _⟩

/-- A report among those raised is told. -/
theorem raises_told {s : State} {bodies : List ReportBody} (mem : b ∈ bodies)
    (enabled : s.reports.settings[(classIndex b.cls).val].enabled = true) :
    (bodies.foldl State.raise s).reports.hasTold b := by
  have keeps : ∀ (l : List ReportBody) (t : State), t.reports.hasTold b → (l.foldl State.raise t).reports.hasTold b := by
    intro l
    induction l with
    | nil => exact fun _ told => told
    | cons d rest ih => exact fun t told => ih _ (raise_keeps told d)
  induction bodies generalizing s with
  | nil => exact absurd mem List.not_mem_nil
  | cons d rest ih =>
    obtain rfl | later := List.mem_cons.mp mem
    · exact keeps rest _ (raise_told enabled)
    · exact ih later (by rw [raise_settings]; exact enabled)

end told

/-! ## What a row obeys -/

/-- A report of this body stands in the queue or on the lane, or its class has lost one. -/
def State.hasTold (s : State) (b : ReportBody) : Prop :=
  s.reports.lost[(classIndex b.cls).val] = true ∨
    ∃ r : Report, r.body = b ∧ (r ∈ s.reports.queue ∨ s.port.sending = some (.report r))

/-- The line driven while its hold runs stays driven (R187). -/
def State.alarmHeld (s t : State) : Prop :=
  s.alarm.line ≠ .deasserted → s.alarm.running s.time = true → t.alarm.line ≠ .deasserted

/-- Each change of a channel's state or source is told, from a state before that stands in a relation to s. -/
def State.Hears (origin : ChannelId → TransportState → Prop) (s t : State) : Prop :=
  s.reports.settings[(classIndex .transport).val].enabled = true → ∀ c,
    (t.channel c).state ≠ (s.channel c).state ∨ (t.channel c).source ≠ (s.channel c).source →
    ∃ before x serial cause, origin c before ∧
      t.hasTold (.stateChanged c before (t.channel c).state ⟨(t.channel c).source, x⟩ serial cause)

/-- The row neither resets nor discards a train's material. -/
def sparesRing (i : Instr) : Prop :=
  i ≠ .powerOnReset ∧ i ≠ .resetInputRelease ∧ (∀ tag a, i ≠ .resetAll tag a) ∧
    (∀ tag a, i ≠ .configureTrain tag a) ∧ ∀ tag a, i ≠ .releaseTrain tag a

/-- The row is no reset. -/
def tellsChanges (i : Instr) : Prop :=
  i ≠ .powerOnReset ∧ i ≠ .resetInputRelease ∧ (∀ tag a, i ≠ .resetAll tag a) ∧ ∀ tag a, i ≠ .resetPlayback tag a

/-- The row by which bytes may complete several records. -/
def framing (i : Instr) : Prop :=
  (∃ l b, i = .receivedByte l b) ∨ (∃ l b, i = .framingDiscard l b) ∨ ∃ l, i = .receiverTimeout l

/-- The state a row's reports tell a change from: the one the row met, but for the rows of several records. -/
def originOf (i : Instr) (s : State) (c : ChannelId) (before : TransportState) : Prop :=
  ¬framing i → before = (s.channel c).state

/-- What row i keeps from s to t. -/
structure Obeys (i : Instr) (s t : State) : Prop where
  upholds : s.Upholds t := by exact {}
  alarm : i ≠ .powerOnReset → (i = .resetInputRelease → s.resetAsserted = false) → s.alarmHeld t
  ring : sparesRing i → s.trainLaw → s.tableLaw → s.ringKept t := by exact fun _ _ _ => ringKept_of_trains rfl
  hears : tellsChanges i → s.Hears (originOf i s) t

section obeys

variable {i : Instr} {s t : State}

theorem alarmHeld_of_kept (kept : s.alarmKept t) : s.alarmHeld t := by
  intro line _
  obtain same | driven := kept
  · rw [same]; exact line
  · simp [driven]

theorem hears_of_rests {origin : ChannelId → TransportState → Prop}
    (kept : ∀ c, (t.channel c).state = (s.channel c).state ∧ (t.channel c).source = (s.channel c).source) :
    s.Hears origin t := by
  intro _ c changed
  obtain ⟨state, source⟩ := kept c
  simp [state, source] at changed

theorem hears_of_tells {origin : ChannelId → TransportState → Prop} (tells : State.TellsFrom origin s t) :
    s.Hears origin t := by
  intro enabled c changed
  obtain ⟨bodies, raised, told⟩ := tells
  obtain ⟨before, x, serial, cause, from_origin, mem⟩ := told c changed
  refine ⟨before, x, serial, cause, from_origin, ?_⟩
  have has := raises_told (s := s) mem enabled
  rw [← raised] at has
  exact has.imp id fun ⟨r, held, body⟩ => ⟨r, body, .inl held⟩

theorem obeys_of_works (works : s.Works t) (tells : State.TellsFrom (originOf i s) s t) : Obeys i s t where
  upholds := works.upholds
  alarm _ _ := alarmHeld_of_kept works.alarm
  ring _ := works.ring
  hears _ := hears_of_tells tells

theorem obeys_refl (i : Instr) (s : State) : Obeys i s s :=
  obeys_of_works (works_refl s) (rests_of_same rfl rfl).tells

theorem obeys_of_acts (acts : s.Acts t) : Obeys i s t := by
  obtain ⟨bodies, raised, told⟩ := acts.tells
  refine obeys_of_works acts.works ⟨bodies, raised, fun c changed => ?_⟩
  obtain ⟨before, x, serial, cause, same, mem⟩ := told c changed
  exact ⟨before, x, serial, cause, fun _ => same, mem⟩

end obeys

/-! ## The lanes begun after an event -/

section lanes

variable {i : Instr} {s t : State}

/-- The port keeps its waiting commands, and its replies but for the one that begins. -/
theorem startLanes_waiting (s : State) : s.startLanes.port.waiting = s.port.waiting ∧
    (s.startLanes.port.replies = s.port.replies ∨ s.startLanes.port.replies = s.port.replies.tail) := by
  rw [(startLanes_ports s).1]
  unfold State.startControl State.sendControl
  split
  · split
    · next waiting => exact ⟨rfl, .inr (by rw [waiting]; rfl)⟩
    · split
      · exact ⟨rfl, .inl rfl⟩
      · exact ⟨rfl, .inl rfl⟩
  · exact ⟨rfl, .inl rfl⟩

theorem fits_of_sublist {p q : CommandPort} (waiting : q.waiting.length ≤ p.waiting.length)
    (replies : q.replies.Sublist p.replies) (fits : p.fits) : q.fits := by
  obtain ⟨places, overloads⟩ := fits
  refine ⟨(Nat.add_le_add waiting ?_).trans places, le_trans ?_ overloads⟩
  · exact (replies.filter _).length_le
  · exact (replies.filter _).length_le

/-- The report queue loses at most the report that begins. -/
theorem sendControl_told {b : ReportBody} (idle : s.port.sending = none) (told : s.hasTold b) :
    s.sendControl.hasTold b := by
  obtain lost | ⟨r, body, held⟩ := told
  · refine .inl ?_
    unfold State.sendControl
    split
    · exact lost
    · split <;> exact lost
  · have queued : r ∈ s.reports.queue := held.elim id fun sent => by simp [idle] at sent
    refine .inr ⟨r, body, ?_⟩
    unfold State.sendControl
    split
    · exact .inl queued
    · split
      · next next found =>
        obtain rfl | stays := mem_of_eraseP found queued
        · exact .inr rfl
        · exact .inl stays
      · next found =>
        rw [nextReport_none found] at queued
        exact absurd queued List.not_mem_nil

theorem startLanes_told {b : ReportBody} (told : s.hasTold b) : s.startLanes.hasTold b := by
  obtain ⟨port, reports, -⟩ := startLanes_ports s
  unfold State.hasTold
  rw [port, reports]
  show s.startControl.hasTold b
  unfold State.startControl
  split
  · next idle => exact sendControl_told (Option.isNone_iff_eq_none.mp idle) told
  · exact told

theorem startEcho_kept (p : Panel) : p.startEcho.binding = p.binding ∧ p.startEcho.curve = p.curve := by
  unfold Panel.startEcho Panel.sendEcho
  split
  · exact ⟨rfl, rfl⟩
  · exact ⟨rfl, rfl⟩

theorem startLanes_reports_length (s : State) : s.startLanes.reports.queue.length ≤ s.reports.queue.length := by
  rw [(startLanes_ports s).2.1]
  unfold State.startControl State.sendControl
  split
  · split
    · exact le_rfl
    · split
      · exact List.eraseP_sublist.length_le
      · exact le_rfl
  · exact le_rfl

/-- The lanes begin what they have, and everything the laws speak of but the replies and the reports is as it was. -/
theorem startLanes_works (s : State) : s.Works s.startLanes := by
  obtain ⟨waiting, replies⟩ := startLanes_waiting s
  have length := startLanes_reports_length s
  have panel := startLanes_panel s
  have sub : s.startLanes.port.replies.Sublist s.port.replies := by
    obtain same | next := replies
    · rw [same]
    · rw [next]
      exact List.tail_sublist _
  obtain ⟨p, r, i, o, v, lanes⟩ := startLanes_eq s
  rw [lanes] at waiting sub length panel ⊢
  refine { upholds := { port := fits_of_sublist (congrArg List.length waiting).le sub, reports := length.trans, speeds := fun law => ?_
                        tables := fun law => ?_ } }
  · refine ⟨law.1, law.2.1, law.2.2.1, fun q => ?_⟩
    rw [panel q, (startEcho_kept _).2]
    exact law.2.2.2 q
  · obtain ⟨locks, order, low, once⟩ := law
    refine ⟨locks, order, low, fun q q' c bound bound' => once q q' c ?_ ?_⟩
    · rwa [panel q, (startEcho_kept _).1] at bound
    · rwa [panel q', (startEcho_kept _).1] at bound'

theorem startLanes_channels (s : State) : s.startLanes.channels = s.channels := by
  obtain ⟨p, r, i, o, v, lanes⟩ := startLanes_eq s
  rw [lanes]

/-- What a row obeys it still obeys when the lanes have begun. -/
theorem obeys_startLanes (obeys : Obeys i s t) : Obeys i s t.startLanes := by
  have works := startLanes_works t
  have same : ∀ c, t.startLanes.channel c = t.channel c := fun c => by
    unfold State.channel
    rw [startLanes_channels]
  have alarm : t.startLanes.alarm = t.alarm := by
    obtain ⟨p, r, i, o, v, lanes⟩ := startLanes_eq t
    rw [lanes]
  have trains : t.startLanes.trains = t.trains := by
    obtain ⟨p, r, i, o, v, lanes⟩ := startLanes_eq t
    rw [lanes]
  refine ⟨obeys.upholds.trans works.upholds, fun no_power released => ?_, fun spares law law' x => ?_,
    fun tells enabled c changed => ?_⟩
  · unfold State.alarmHeld
    rw [alarm]
    exact obeys.alarm no_power released
  · have kept := obeys.ring spares law law' x
    unfold State.train at kept ⊢
    rw [trains]
    exact kept
  · rw [same c] at changed ⊢
    obtain ⟨before, x, serial, cause, from_origin, told⟩ := obeys.hears tells enabled c changed
    exact ⟨before, x, serial, cause, from_origin, startLanes_told told⟩

end lanes

end Sys2Proof.Machine
end

section
/-! Commands at the port and records on the links: what a row obeys, from what its block does. -/

namespace Sys2Proof.Machine
open Sys2Proof

/-! ## Arrivals (R178) -/

section arrivals

variable {s : State}

/-- The port written, within its bounds. -/
theorem setPort_works {p : CommandPort} (fits : s.port.fits → p.fits) : s.Works { s with port := p } :=
  { upholds := { port := fits } }

theorem arrive_works (s : State) (i : Instr) (kind tag : Byte) : s.Works (s.arrive i kind tag) := by
  unfold State.arrive
  split
  · next room =>
    refine setPort_works fun fits => ⟨?_, fits.2⟩
    unfold CommandPort.placesHeld at room ⊢
    simp only [List.length_append, List.length_singleton]
    omega
  · dsimp only
    split
    · next some =>
      have formed : s.Works (s.formReply kind tag .overload .empty true) := by
        refine setPort_works fun fits => ⟨?_, ?_⟩
        · have places := fits.1
          unfold CommandPort.placesHeld at places ⊢
          simpa [List.filter_append] using places
        · unfold CommandPort.overloads at some ⊢
          simp only [List.filter_append, List.length_append]
          exact Nat.lt_iff_add_one_le.mp some
      exact formed.trans (recordFault_idles _ _ _).works
    · exact (recordFault_idles _ _ _).works

theorem arrive_rests (s : State) (i : Instr) (kind tag : Byte) : s.Rests (s.arrive i kind tag) := by
  unfold State.arrive
  split
  · exact rests_of_same rfl rfl
  · dsimp only
    split
    · have formed : s.Rests (s.formReply kind tag .overload .empty true) := rests_of_same rfl rfl
      have recorded := (recordFault_idles (s.formReply kind tag .overload .empty true) .controlOverload none).rests
      exact State.Rests.trans (t := s.formReply kind tag .overload .empty true) rfl formed recorded
    · exact (recordFault_idles s .controlOverload none).rests

theorem arrive_obeys (i j : Instr) (s : State) (kind tag : Byte) : Obeys i s (s.arrive j kind tag) :=
  obeys_of_works (arrive_works s j kind tag) (arrive_rests s j kind tag).tells

end arrivals

/-! ## Commands carried out (R179, R180) -/

/-- What a command's block does: what row i obeys, with the port as it was. -/
structure State.Carries (i : Instr) (s t : State) : Prop where
  obeys : Obeys i s t
  port : t.port = s.port := by rfl

theorem carries_of_acts {i : Instr} {s t : State} (acts : s.Acts t) : s.Carries i t := ⟨obeys_of_acts acts, acts.port⟩

theorem leads_carries {i : Instr} {s : State} {v : Verdict} (acts : v.leads State.Acts s) :
    v.leads (State.Carries i) s := by
  cases v with
  | done t body => exact carries_of_acts acts
  | refuse st => trivial

section commands

variable {α : Type} {i : Instr} {kind tag : Byte} {f : α → State → Verdict}

/-- A command carried out with fewer than 4 places held has a place for its reply. -/
theorem answered_obeys {s t : State} {waiting : List Instr} (st : Status) (body : ReplyBody)
    (room : s.port.fits → CommandPort.placesHeld { s.port with waiting := waiting } < 4)
    (carries : State.Carries i { s with port := { s.port with waiting := waiting } } t) :
    Obeys i s (t.formReply kind tag st body false) := by
  obtain ⟨⟨upholds, alarm, ring, hears⟩, port⟩ := carries
  refine ⟨{ upholds with port := fun fits => ?_ }, alarm, ring, fun tells enabled c changed => ?_⟩
  · have places := room fits
    have overloads := fits.2
    show CommandPort.fits { t.port with replies := t.port.replies ++ _ }
    rw [port]
    refine ⟨?_, ?_⟩
    · unfold CommandPort.placesHeld at places ⊢
      simp only [List.filter_append, List.length_append] at places ⊢
      simp only [List.filter_cons, List.filter_nil, Bool.not_false, if_true, List.length_singleton]
      omega
    · unfold CommandPort.overloads at overloads ⊢
      simpa [List.filter_append] using overloads
  · exact hears tells enabled c changed

theorem dispatch_obeys {s : State} {waiting : List Instr} (a : Sent α)
    (each : ∀ x s, (f x s).leads (State.Carries i) s)
    (room : s.port.fits → CommandPort.placesHeld { s.port with waiting := waiting } < 4) :
    Obeys i s (State.dispatch { s with port := { s.port with waiting := waiting } } kind tag a f) := by
  have refused := fun st => answered_obeys (i := i) (kind := kind) (tag := tag) st .empty room
    ⟨obeys_refl i _, rfl⟩
  cases a with
  | badLength => exact refused .badLength
  | badByte => exact refused .badValue
  | fields x =>
    have leads := each x { s with port := { s.port with waiting := waiting } }
    unfold State.dispatch
    dsimp only
    cases found : f x { s with port := { s.port with waiting := waiting } } with
    | done t body =>
      rw [found] at leads
      exact answered_obeys .ok body room leads
    | refuse st => exact refused st

/-- The turn of a command: carried out with a place for its reply, or an arrival. -/
theorem turn_obeys {carry : State → State} (s : State) (carried : ∀ waiting,
    (s.port.fits → CommandPort.placesHeld { s.port with waiting := waiting } < 4) →
    Obeys i s (carry { s with port := { s.port with waiting := waiting } })) : Obeys i s (s.turn i kind tag carry) := by
  unfold State.turn
  split
  · split
    · next room => exact carried s.port.waiting fun _ => room
    · exact arrive_obeys i i s kind tag
  · next j rest waiting =>
    split
    · refine carried rest fun fits => ?_
      have places := fits.1
      unfold CommandPort.placesHeld at places ⊢
      rw [waiting, List.length_cons] at places
      dsimp only
      omega
    · exact arrive_obeys i i s kind tag

/-- What row i keeps from the state it meets to the state it leaves: what it obeys, and no lane idle with something to
send. -/
structure RowKeeps (i : Instr) (s t : State) : Prop extends Obeys i s t where
  lanes : s.lanesRunning → t.lanesRunning

/-- An event obeys what its operation does, begins what the lanes have, and changes nothing while the reset input is
asserted. -/
theorem powered_keeps {s t : State} {g : State → State} (next : powered s g = .next t) (op : Obeys i s (g s)) :
    RowKeeps i s t := by
  unfold powered at next
  obtain rfl := Host.Outcome.next.inj next
  split
  · exact ⟨obeys_refl i s, id⟩
  · exact ⟨obeys_startLanes op, fun _ => startLanes_lanesRunning _⟩

theorem command_keeps {s t : State} {a : Sent α} (next : command i kind tag a f s = .next t)
    (each : ∀ x s, (f x s).leads (State.Carries i) s) : RowKeeps i s t :=
  powered_keeps next (turn_obeys s fun _ room => dispatch_obeys a each room)

end commands

/-! ## Records on the links (R191) -/

section records

/-- A record taken works, and tells each change. -/
theorem takeRecord_works (l : Link) (s : State) (r : Record) :
    s.Works (s.takeRecord l r) ∧ s.Murmurs (s.takeRecord l r) := by
  have acts : ∀ {t}, s.Acts t → s.Works t ∧ s.Murmurs t := fun acts => ⟨acts.works, murmurs_of_tells acts.tells⟩
  unfold State.takeRecord
  split
  · exact ⟨arrive_works s _ _ _, (arrive_rests s _ _ _).tells⟩
  · unfold State.takeIngest
    split
    · exact acts (frameOpen_acts _ _ _ s)
    · exact acts (frameDone_acts _ _ _ _ s)
    · exact acts (acts_refl s)
  · unfold State.takePlayout
    split
    · exact acts (frameRequest_acts _ _ _ s)
    · exact acts (acts_refl s)
  · unfold State.takePanel
    split
    · exact acts (wheelRecord_acts s _ _)
    · exact acts (jogRecord_acts s _ _)
    · exact acts (keyRecord_acts s _ _ _)
    · exact acts (touchPanel_idles s _).acts

theorem takeRecords_works (l : Link) (records : List Record) (s : State) :
    s.Works (records.foldl (State.takeRecord l) s) ∧ s.Murmurs (records.foldl (State.takeRecord l) s) := by
  induction records generalizing s with
  | nil => exact ⟨works_refl s, (rests_of_same rfl rfl).tells⟩
  | cons r rest ih =>
    obtain ⟨works, murmurs⟩ := takeRecord_works l s r
    obtain ⟨works', murmurs'⟩ := ih (s.takeRecord l r)
    exact ⟨works.trans works', murmurs_trans works.time murmurs murmurs'⟩

/-- A run of bytes examined obeys what a row of several records does. -/
theorem examine_obeys {i : Instr} (several : framing i) (l : Link) (bs : List Byte) (time : Nat) (s : State) :
    Obeys i s (s.examine l bs time) := by
  unfold State.examine
  dsimp only
  have received : ∀ r, s.Works (s.setReceiver l r) ∧ s.Rests (s.setReceiver l r) := fun r =>
    ⟨{}, rests_of_same rfl rfl⟩
  obtain ⟨works, murmurs⟩ := takeRecords_works l (scan (bs.length + 1) bs).1 (s.setReceiver l
    { state := receiverStateOf (scan (bs.length + 1) bs).2, held := (scan (bs.length + 1) bs).2, lastByte := time })
  obtain ⟨bodies, raised, told⟩ := murmurs_trans (received _).1.time (received _).2.tells murmurs
  refine obeys_of_works ((received _).1.trans works) ⟨bodies, raised, fun c changed => ?_⟩
  obtain ⟨before, x, serial, cause, -, mem⟩ := told c changed
  exact ⟨before, x, serial, cause, fun single => absurd several single, mem⟩

end records

end Sys2Proof.Machine
end

section
/-! The rows that are no plain operation of a block: trains set up and taken down, locks, the report unit's settings, the
alarm line, the resets, and the lanes. -/

namespace Sys2Proof.Machine
open Sys2Proof

section

variable {i : Instr} {s t : State}

/-- A row that changes no train and no channel. -/
theorem obeys_of_still (upholds : s.Upholds t) (alarm : s.alarmHeld t) (trains : t.trains = s.trains)
    (channels : t.channels = s.channels) : Obeys i s t where
  upholds := upholds
  alarm _ _ := alarm
  ring _ _ _ := ringKept_of_trains trains
  hears _ := hears_of_rests fun c => by
    unfold State.channel
    rw [channels]
    exact ⟨rfl, rfl⟩

theorem alarmHeld_of_same (same : t.alarm = s.alarm) : s.alarmHeld t := alarmHeld_of_kept (.inl same)

end

/-! ## CONFIGURE_TRAIN and RELEASE_TRAIN (R6 to R9) -/

section discards

variable {s : State} {x : TrainId}

/-- A discard, and then the train's record written. -/
theorem discarded_carries {i : Instr} {r : Train} (discards : ¬sparesRing i)
    (stopped : (s.train x).state = .idle ∨ (s.train x).state = .unconfigured)
    (keeps : (s.discard x).trainLaw → r.chainLaw ∧ ((s.discard x).setTrain x r).poolLaw) :
    s.Carries i ((s.discard x).setTrain x r) := by
  obtain ⟨-, -, -, -, -, -, ⟨-, alarm⟩, ⟨port, -⟩, -⟩ := discard_frame s x
  obtain ⟨bodies, raised, told⟩ := discard_tells s x
  have upholds := discard_upholds stopped
  generalize s.discard x = v at alarm port raised told upholds keeps ⊢
  refine ⟨⟨upholds.trans (setTrain_upholds keeps), fun _ _ => alarmHeld_of_same alarm,
    fun spares => absurd spares discards, fun _ => hears_of_tells ⟨bodies, raised, fun c changed => ?_⟩⟩, port⟩
  obtain ⟨before, y, serial, cause, same, mem⟩ := told c changed
  exact ⟨before, y, serial, cause, fun _ => same, mem⟩

/-- A pool that overlaps none of the configured trains' set up (R1, R7). -/
theorem configured_poolLaw {p : Pool} {multiple : Nat} (count : 4 ≤ p.count) (within : p.first + p.count ≤ 4096)
    (apart : ¬s.poolOverlaps x p = true) (law : s.poolLaw) :
    (s.setTrain x (configuredTrain p multiple)).poolLaw := by
  obtain ⟨pools, sizes, disjoint⟩ := law
  have train : ∀ y, (s.setTrain x (configuredTrain p multiple)).train y =
      if y = x then configuredTrain p multiple else s.train y := by
    intro y
    by_cases same : y = x
    · subst same; rw [setTrain_train_self, if_pos rfl]
    · rw [setTrain_train_ne _ _ _ same, if_neg same]
  have clear : ∀ y q e, y ≠ x → (s.train y).pool = some q → ¬(p.contains e = true ∧ q.contains e = true) := by
    intro y q e ne pool shared
    refine apart ((poolOverlaps_iff s x p).mpr ⟨y, q, ne, fun off => ?_, pool, Pool.overlaps_of_contains shared.1 shared.2⟩)
    rw [(pools y).mp off] at pool
    cases pool
  refine ⟨fun y => ?_, fun y q pool => ?_, fun y z p' q' e ne pool pool' => ?_⟩
  · rw [train]
    split
    · simp [configuredTrain]
    · exact pools y
  · rw [train] at pool
    split at pool
    · obtain rfl : p = q := Option.some.inj pool
      exact ⟨count, within⟩
    · exact sizes y q pool
  · rw [train] at pool pool'
    split at pool
    · next mine =>
      obtain rfl : p = p' := Option.some.inj pool
      rw [if_neg fun same => ne (mine.trans same.symm)] at pool'
      exact clear z q' e (fun same => ne (mine.trans same.symm)) pool'
    · next other =>
      split at pool'
      · obtain rfl : p = q' := Option.some.inj pool'
        exact fun shared => clear y p' e other pool shared.symm
      · exact disjoint y z p' q' e ne pool pool'

/-- A train whose pool is given up (R9). -/
theorem released_poolLaw {r : Train} (pool : r.pool = none) (state : r.state = .unconfigured) (law : s.poolLaw) :
    (s.setTrain x r).poolLaw := by
  obtain ⟨pools, sizes, disjoint⟩ := law
  have known : ∀ y p, ((s.setTrain x r).train y).pool = some p → (s.train y).pool = some p := by
    intro y p found
    by_cases same : y = x
    · subst same
      rw [setTrain_train_self, pool] at found
      cases found
    · rwa [setTrain_train_ne _ _ _ same] at found
  refine ⟨fun y => ?_, fun y p found => sizes y p (known y p found), fun y z p q e ne found found' =>
    disjoint y z p q e ne (known y p found) (known z q found')⟩
  by_cases same : y = x
  · subst same
    rw [setTrain_train_self]
    exact iff_of_true state pool
  · rw [setTrain_train_ne _ _ _ same]
    exact pools y

theorem configureTrain_carries {tag : Byte} {b : Sent ConfigureTrainArgs} (a : ConfigureTrainArgs) (s : State) :
    (configureTrain a s).leads (State.Carries (.configureTrain tag b)) s := by
  have discards : ¬sparesRing (.configureTrain tag b) := fun spares => spares.2.2.2.1 tag b rfl
  unfold configureTrain
  split
  · trivial
  · next x _ =>
    dsimp only
    split
    · trivial
    · next values =>
      split
      · trivial
      · next stopped =>
        split
        · trivial
        · next apart =>
          split
          · trivial
          · simp only [Bool.or_eq_true, decide_eq_true_eq, not_or, not_lt] at values
            obtain ⟨⟨-, count⟩, within⟩ := values
            have idle : (s.train x).state = .idle ∨ (s.train x).state = .unconfigured := by
              cases st : (s.train x).state <;> simp [st] at stopped ⊢
            refine discarded_carries discards idle fun law => ⟨?_, ?_⟩
            · exact chainLaw_iff.mpr ⟨chainOrder_nil _ _, by simp [configuredTrain], trivial⟩
            · refine configured_poolLaw count within (fun overlaps => apart ?_) law.2
              obtain ⟨y, q, ne, configured, pool, overlap⟩ := (poolOverlaps_iff ..).mp overlaps
              rw [discard_train_ne s x ne] at configured pool
              exact (poolOverlaps_iff ..).mpr ⟨y, q, ne, configured, pool, overlap⟩

theorem releaseTrain_carries {tag : Byte} {a : Sent Byte} (b : Byte) (s : State) :
    (releaseTrain b s).leads (State.Carries (.releaseTrain tag a)) s := by
  have discards : ¬sparesRing (.releaseTrain tag a) := fun spares => spares.2.2.2.2 tag a rfl
  unfold releaseTrain
  split
  · trivial
  · next x _ =>
    split
    · exact carries_of_acts (acts_refl s)
    · trivial
    · trivial
    · next idle =>
      split
      · trivial
      · refine discarded_carries discards (.inl idle) fun law => ⟨?_, ?_⟩
        · rw [discard_train_self]
          exact chainLaw_iff.mpr ⟨chainOrder_nil _ _, by simp, rfl⟩
        · exact released_poolLaw rfl rfl law.2

end discards

/-! ## Locks and trims (R137 to R140) -/

section locks

variable {i : Instr} {s : State} {k k' : Clip}

/-- A clip's record written, with lock counts in their canonical form. -/
theorem locked_carries {locks : List (Nat × Nat)} (mem : k ∈ s.clips) (same : k'.id = k.id)
    (settings : k'.speed = k.speed ∧ k'.bounce = k.bounce) (wf : locksWf s.locks = true → locksWf locks = true) :
    s.Carries i { s.setClip k' with locks := locks } := by
  have clip : s.Upholds (s.setClip k') := (setClip_idles mem same fun law => by
    rw [settings.1, settings.2]
    exact law.2.1 k mem).works.upholds
  have counts : (s.setClip k').Upholds { s.setClip k' with locks := locks } :=
    { tables := fun law => ⟨wf law.1, law.2⟩ }
  exact ⟨obeys_of_still (clip.trans counts) (alarmHeld_of_same rfl) rfl rfl, rfl⟩

theorem carries_refl (i : Instr) (s : State) : s.Carries i s := carries_of_acts (acts_refl s)

theorem lockClip_carries (w : Half) (s : State) : (lockClip w s).leads (State.Carries i) s := by
  refine leads_onClip fun k mem => ?_
  unfold lockOn
  split
  · trivial
  · split
    · exact carries_refl i s
    · exact locked_carries mem rfl ⟨rfl, rfl⟩ fun wf => (raiseLocks _ wf).1

theorem unlockClip_carries (w : Half) (s : State) : (unlockClip w s).leads (State.Carries i) s := by
  refine leads_onClip fun k mem => ?_
  unfold unlockOn
  split
  · exact carries_refl i s
  · exact locked_carries mem rfl ⟨rfl, rfl⟩ fun wf => (lowerLocks _ wf).1

theorem trimClip_carries (a : TrimClipArgs) (s : State) : (trimClip a s).leads (State.Carries i) s := by
  unfold trimClip
  split
  · trivial
  · refine leads_onClip fun k mem => ?_
    unfold trimOn
    split
    · trivial
    · split
      · trivial
      · split
        · trivial
        · split
          · trivial
          · refine locked_carries mem rfl ⟨rfl, rfl⟩ fun wf => ?_
            split
            · exact (raiseLocks _ (lowerLocks _ wf).1).1
            · exact wf

end locks

/-! ## The report unit's settings and the alarm line (R182, R184, R186 to R188) -/

section settings

variable {i : Instr}

theorem setReports_carries (l : List ReportSettingField) (s : State) :
    (setReports l s).leads (State.Carries i) s := by
  unfold setReports
  split
  · exact ⟨obeys_of_still {} (alarmHeld_of_same rfl) rfl rfl, rfl⟩
  · trivial

theorem querySummary_carries (u : Unit) (s : State) : (querySummary u s).leads (State.Carries i) s :=
  ⟨obeys_of_still {} (alarmHeld_of_same rfl) rfl rfl, rfl⟩

theorem queryTrains_acts (b : Byte) (s : State) : (queryTrains b s).leads State.Acts s := by
  unfold queryTrains
  split
  · trivial
  · exact acts_refl s

theorem queryChannels_acts (b : Byte) (s : State) : (queryChannels b s).leads State.Acts s := by
  unfold queryChannels
  split
  · trivial
  · exact acts_refl s

theorem queryPanels_acts (u : Unit) (s : State) : (queryPanels u s).leads State.Acts s := acts_refl s

/-- A clear leaves a line driven while its hold runs (R187). -/
theorem clear_held {a : Alarm} {now : Nat} (line : a.line ≠ .deasserted) (runs : a.running now = true) :
    (a.clear now).line ≠ .deasserted := by
  by_cases asserted : a.line = .asserted
  · rw [clear_running asserted runs]
    simp
  · rw [clear_released asserted]
    exact line

theorem clearFaults_carries (u : Unit) (s : State) : (clearFaults u s).leads (State.Carries i) s :=
  ⟨obeys_of_still { faults := fun _ => Nat.zero_le _ } clear_held rfl rfl, rfl⟩

theorem setAlarm_carries (a : SetAlarmArgs) (s : State) : (setAlarm a s).leads (State.Carries i) s := by
  unfold setAlarm
  split
  · exact ⟨obeys_of_still {} (fun line _ => line) rfl rfl, rfl⟩
  · trivial

/-- A hold that runs is not due, so that its end does nothing. -/
theorem holdEnd_obeys (s : State) : Obeys i s s.holdEnd := by
  unfold State.holdEnd
  split
  · next due =>
    refine obeys_of_still {} (fun _ runs => ?_) rfl rfl
    obtain ⟨h, held, past⟩ := holdDue_iff.mp due
    obtain ⟨h', held', later⟩ := running_iff.mp runs
    rw [held] at held'
    exact absurd (Option.some.inj held' ▸ later) past
  · exact obeys_refl i s

end settings

/-! ## The resets (R189, R190, R194) -/

section resets

variable {s : State}

theorem resetAll_carries {tag : Byte} {a : Sent Unit} (u : Unit) (s : State) :
    (resetAll u s).leads (State.Carries (.resetAll tag a)) s := by
  have panel := resetAll_panel s
  refine ⟨⟨?_, fun _ _ => ?_, fun spares => absurd rfl (spares.2.2.1 tag a), fun tells => absurd rfl (tells.2.2.1 tag a)⟩,
    rfl⟩
  · have cleared : ∀ p, (s.resetAll.panel p).binding = (State.reset.panel p).binding ∧
        (s.resetAll.panel p).curve = (State.reset.panel p).curve := fun p => by
      rw [panel, reset_panel]
      exact ⟨rfl, rfl⟩
    refine {
      reports := fun _ => Nat.zero_le _, runLog := fun _ => Nat.zero_le _, faults := fun _ => Nat.zero_le _
      queues := fun _ => reset_queueLaw, fits := fun _ _ => reset_speedsFit, speeds := fun _ => ?_
      gangs := fun _ => reset_gangLaw, trains := fun _ => reset_trainLaw, tables := fun _ => ?_ }
    · obtain ⟨channels, clips, queues, panels⟩ := reset_speedLaw
      refine ⟨channels, clips, queues, fun p => ?_⟩
      rw [(cleared p).2]
      exact panels p
    · obtain ⟨locks, order, low, once⟩ := reset_tableLaw
      refine ⟨locks, order, low, fun p q c bound bound' => once p q c ?_ ?_⟩
      · rwa [(cleared p).1] at bound
      · rwa [(cleared q).1] at bound'
  · intro line runs
    rw [resetAll_alarm]
    exact clear_held line runs

theorem resetPlayback_carries {tag : Byte} {a : Sent Unit} (u : Unit) (s : State) :
    (resetPlayback u s).leads (State.Carries (.resetPlayback tag a)) s := by
  have panel := resetPlayback_panel s
  refine ⟨⟨?_, fun _ _ => alarmHeld_of_same rfl, fun _ _ _ => ringKept_of_trains rfl,
    fun tells => absurd rfl (tells.2.2.2 tag a)⟩, rfl⟩
  refine {
    queues := fun _ => reset_queueLaw, fits := fun _ _ => reset_speedsFit, speeds := fun law => ?_
    gangs := fun _ => reset_gangLaw, tables := fun law => ?_ }
  · obtain ⟨channels, -, queues, -⟩ := reset_speedLaw
    refine ⟨channels, law.2.1, queues, fun p => ?_⟩
    rw [panel p]
    exact law.2.2.2 p
  · obtain ⟨locks, order, low, once⟩ := law
    refine ⟨locks, order, low, fun p q c bound bound' => once p q c ?_ ?_⟩
    · rwa [panel p] at bound
    · rwa [panel q] at bound'

/-- The power-on values meet every law. -/
theorem reset_upholds {t : State} (values : t = { State.reset with
    pending := t.pending, resetAsserted := t.resetAsserted, freeReads := t.freeReads }) : s.Upholds t := by
  rw [values]
  exact {
    port := fun _ => ⟨reset_bounded.1, reset_bounded.2.1⟩, reports := fun _ => Nat.zero_le _
    runLog := fun _ => Nat.zero_le _, faults := fun _ => Nat.zero_le _, queues := fun _ => reset_queueLaw
    fits := fun _ _ => reset_speedsFit, speeds := fun _ => reset_speedLaw, gangs := fun _ => reset_gangLaw
    trains := fun _ => reset_trainLaw, tables := fun _ => reset_tableLaw }

theorem powerOnReset_keeps {t : State} (next : exec .powerOnReset s = .next t) : RowKeeps .powerOnReset s t := by
  obtain rfl := Host.Outcome.next.inj next
  exact ⟨⟨reset_upholds rfl, fun power => absurd rfl power, fun spares => absurd rfl spares.1,
    fun tells => absurd rfl tells.1⟩, fun _ => reset_lanesRunning⟩

theorem resetInputRelease_keeps {t : State} (next : exec .resetInputRelease s = .next t) :
    RowKeeps .resetInputRelease s t := by
  obtain rfl := Host.Outcome.next.inj next
  refine ⟨⟨?_, fun _ released => ?_, fun spares => absurd rfl spares.2.1, fun tells => absurd rfl tells.2.1⟩,
    fun running => ?_⟩
  · split
    · exact reset_upholds rfl
    · exact upholds_refl s
  · rw [if_neg (by simp [released rfl])]
    exact alarmHeld_of_same rfl
  · split
    · exact reset_lanesRunning
    · exact running

end resets

/-! ## The lanes (R113, R181, R192) -/

section lanes

variable {i : Instr}

theorem sendControl_obeys (s : State) : Obeys i s s.sendControl := by
  unfold State.sendControl
  split
  · next r rest waiting =>
    refine obeys_of_still { port := fits_of_sublist le_rfl ?_ } (alarmHeld_of_same rfl) rfl rfl
    rw [waiting]
    exact List.sublist_cons_self _ _
  · split
    · refine obeys_of_still { reports := fun low => ?_ } (alarmHeld_of_same rfl) rfl rfl
      exact List.eraseP_sublist.length_le.trans low
    · exact obeys_of_still {} (alarmHeld_of_same rfl) rfl rfl

theorem sendEcho_obeys (s : State) (p : PanelId) : Obeys i s (s.setPanel p (s.panel p).sendEcho) := by
  have idles : s.Idles (s.setPanel p (s.panel p).sendEcho) := setPanel_idles rfl rfl
  exact obeys_of_acts idles.acts

end lanes

end Sys2Proof.Machine
end

section
/-! The rows together, and the statements of what every step keeps. -/

namespace Sys2Proof.Machine
open Sys2Proof

section rows

variable {α : Type} {i : Instr} {kind tag : Byte} {a : Sent α} {f : α → State → Verdict} {s t : State}

theorem acts_keeps (next : command i kind tag a f s = .next t) (acts : ∀ x w, (f x w).leads State.Acts w) :
    RowKeeps i s t := command_keeps next fun x w => leads_carries (acts x w)

theorem plays_keeps (next : command i kind tag a f s = .next t) (plays : ∀ x w, (f x w).leads State.Plays w) :
    RowKeeps i s t := acts_keeps next fun x w => leads_acts (plays x w)

end rows

theorem unknownKind_keeps {kind tag : Byte} {s t : State} (next : exec (.unknownKind kind tag) s = .next t) :
    RowKeeps (.unknownKind kind tag) s t :=
  powered_keeps (g := fun s => s.turn (.unknownKind kind tag) kind tag fun s =>
    s.formReply kind tag .unknownKind .empty false) next (turn_obeys s fun _ room => answered_obeys .unknownKind .empty room ⟨obeys_refl _ _, rfl⟩)

/-- An answer lane advances, which no law speaks of (R192). -/
theorem answerSent_keeps {lane : AnswerLane} {s t : State} (next : exec (.answerSent lane) s = .next t) :
    RowKeeps (.answerSent lane) s t := by
  cases lane with
  | ingest =>
    exact powered_keeps (g := fun s => { s with ingest := s.ingest.advance }) next
      (obeys_of_still {} (alarmHeld_of_same rfl) rfl rfl)
  | playout =>
    exact powered_keeps (g := fun s => { s with playout := s.playout.advance }) next
      (obeys_of_still {} (alarmHeld_of_same rfl) rfl rfl)

/-- A run of bytes that may complete several records. -/
theorem framing_keeps {s t : State} :
    (∀ l b, exec (.receivedByte l b) s = .next t → RowKeeps (.receivedByte l b) s t) ∧
    (∀ l b, exec (.framingDiscard l b) s = .next t → RowKeeps (.framingDiscard l b) s t) ∧
    ∀ l, exec (.receiverTimeout l) s = .next t → RowKeeps (.receiverTimeout l) s t := by
  refine ⟨fun l b next => ?_, fun l b next => ?_, fun l next => ?_⟩
  · exact powered_keeps (g := fun s => s.receiveByte l b) next (examine_obeys (.inl ⟨l, b, rfl⟩) l _ _ s)
  · refine powered_keeps (g := fun s => if discardsOn (s.receiver l).held b then s.receiveByte l b else s) next ?_
    split
    · exact examine_obeys (.inr (.inl ⟨l, b, rfl⟩)) l _ _ s
    · exact obeys_refl _ s
  · refine powered_keeps (g := fun s => s.timeout l) next ?_
    unfold State.timeout
    split
    · exact examine_obeys (.inr (.inr ⟨l, rfl⟩)) l _ _ s
    · exact obeys_refl _ s

/-- Every row keeps what it must. -/
theorem exec_keeps {i : Instr} {s t : State} (next : exec i s = .next t) : RowKeeps i s t := by
  cases i with
  | powerOnReset => exact powerOnReset_keeps next
  | resetInputRelease => exact resetInputRelease_keeps next
  | commandArrival kind tag body =>
    exact powered_keeps (g := fun s => s.takeCommand kind tag body) next (arrive_obeys _ _ s kind tag)
  | unknownKind kind tag => exact unknownKind_keeps next
  | configureTrain tag a => exact command_keeps next configureTrain_carries
  | releaseTrain tag a => exact command_keeps next releaseTrain_carries
  | startTrain tag a => exact acts_keeps next startTrain_acts
  | stopTrain tag a => exact acts_keeps next stopTrain_acts
  | timebase tag a => exact acts_keeps next timebase_acts
  | queryAnchors tag a => exact acts_keeps next queryAnchors_acts
  | loadClip tag a => exact plays_keeps next loadClip_plays
  | selectTrain tag a => exact plays_keeps next selectTrain_plays
  | unload tag a => exact plays_keeps next unload_plays
  | play tag a => exact plays_keeps next play_plays
  | setSpeed tag a => exact plays_keeps next setSpeed_plays
  | pause tag a => exact plays_keeps next pause_plays
  | goto tag a => exact plays_keeps next goto_plays
  | live tag a => exact plays_keeps next live_plays
  | setAccel tag a => exact plays_keeps next setAccel_plays
  | setBlend tag a => exact plays_keeps next setBlend_plays
  | setEndAction tag a => exact plays_keeps next setEndAction_plays
  | setTargetBank tag a => exact plays_keeps next setTargetBank_plays
  | setAngleGroup tag a => exact plays_keeps next setAngleGroup_plays
  | angle tag a => exact plays_keeps next angle_plays
  | angleNext tag a => exact plays_keeps next angleNext_plays
  | gang tag a => exact acts_keeps next gang_acts
  | ungang tag a => exact acts_keeps next ungang_acts
  | bind tag a => exact acts_keeps next bind_acts
  | setCurve tag a => exact acts_keeps next setCurve_acts
  | queryCurve tag a => exact acts_keeps next queryCurve_acts
  | setSilence tag a => exact acts_keeps next setSilence_acts
  | markIn tag a => exact plays_keeps next markIn_plays
  | markOut tag a => exact plays_keeps next markOut_plays
  | clearMarks tag a => exact plays_keeps next clearMarks_plays
  | take tag a => exact acts_keeps next take_acts
  | lockClip tag a => exact command_keeps next lockClip_carries
  | unlockClip tag a => exact command_keeps next unlockClip_carries
  | trimClip tag a => exact command_keeps next trimClip_carries
  | deleteClip tag a => exact acts_keeps next deleteClip_acts
  | clearBank tag a => exact acts_keeps next clearBank_acts
  | clearAll tag a => exact acts_keeps next clearAll_acts
  | guardBank tag a => exact acts_keeps next guardBank_acts
  | unguardBank tag a => exact acts_keeps next unguardBank_acts
  | rename tag a => exact acts_keeps next rename_acts
  | rate tag a => exact acts_keeps next rate_acts
  | setClipPlay tag a => exact acts_keeps next setClipPlay_acts
  | queryClip tag a => exact acts_keeps next queryClip_acts
  | listBank tag a => exact acts_keeps next listBank_acts
  | queueAdd tag a => exact plays_keeps next queueAdd_plays
  | queueRemove tag a => exact plays_keeps next queueRemove_plays
  | queueClear tag a => exact plays_keeps next queueClear_plays
  | queryQueue tag a => exact plays_keeps next queryQueue_plays
  | queueStart tag a => exact plays_keeps next queueStart_plays
  | queueNext tag a => exact plays_keeps next queueNext_plays
  | readRunlog tag a => exact acts_keeps next readRunlog_acts
  | flushRunlog tag a => exact acts_keeps next flushRunlog_acts
  | setReports tag a => exact command_keeps next setReports_carries
  | queryStatusSummary tag a => exact command_keeps next querySummary_carries
  | queryStatusTrains tag a => exact acts_keeps next queryTrains_acts
  | queryStatusChannels tag a => exact acts_keeps next queryChannels_acts
  | queryStatusPanels tag a => exact acts_keeps next queryPanels_acts
  | readFaults tag a => exact acts_keeps next readFaults_acts
  | clearFaults tag a => exact command_keeps next clearFaults_carries
  | setAlarm tag a => exact command_keeps next setAlarm_carries
  | resetAll tag a => exact command_keeps next resetAll_carries
  | resetPlayback tag a => exact command_keeps next resetPlayback_carries

  | frameOpen tag train label => exact powered_keeps next (obeys_of_acts (frameOpen_acts tag train label s))
  | frameDone tag train page good => exact powered_keeps next (obeys_of_acts (frameDone_acts tag train page good s))
  | frameRequest tag channel n => exact powered_keeps next (obeys_of_acts (frameRequest_acts tag channel n s))
  | wheel panel lever =>
    exact powered_keeps (g := fun s => s.wheelRecord panel lever) next (obeys_of_acts (wheelRecord_acts s panel lever))
  | jog panel count =>
    exact powered_keeps (g := fun s => s.jogRecord panel count) next (obeys_of_acts (jogRecord_acts s panel count))
  | key panel code press =>
    exact powered_keeps (g := fun s => s.keyRecord panel code press) next (obeys_of_acts (keyRecord_acts s panel code press))
  | ignoredPanelRecord panel =>
    exact powered_keeps (g := fun s => s.touchPanel panel) next (obeys_of_acts (touchPanel_idles s panel).acts)
  | deadManExpiry panel =>
    exact powered_keeps (g := fun s => s.deadMan panel) next (obeys_of_acts (deadMan_acts s panel))
  | echoSent panel =>
    exact powered_keeps (g := fun s => s.setPanel panel (s.panel panel).sendEcho) next (sendEcho_obeys s panel)
  | controlRecordSent => exact powered_keeps next (sendControl_obeys s)
  | answerSent lane => exact answerSent_keeps next
  | holdEnd => exact powered_keeps next (holdEnd_obeys s)
  | framingDiscard link byte => exact framing_keeps.2.1 link byte next
  | receiverTimeout link => exact framing_keeps.2.2 link next
  | receivedByte link byte => exact framing_keeps.1 link byte next

end Sys2Proof.Machine
end

section
/-! The statements of what every step keeps (O28, O54 to O60), from what every row keeps. -/

namespace Sys2Proof.Machine
open Sys2Proof

/-- A step upholds the laws and keeps the lanes running: it carries out a row, or lets a millisecond pass. -/
theorem step_keeps {s t : State} (next : step s = .next t) :
    s.Upholds t ∧ (s.lanesRunning → t.lanesRunning) := by
  unfold step at next
  split at next
  · next i rest _ =>
    obtain ⟨⟨upholds, -, -, -⟩, lanes⟩ := exec_keeps next
    have queued : s.Upholds { s with pending := rest } := {}
    exact ⟨queued.trans upholds, lanes⟩
  · split at next
    · obtain rfl := Host.Outcome.next.inj next
      exact ⟨upholds_refl s, id⟩
    · split at next
      · obtain ⟨⟨upholds, -, -, -⟩, lanes⟩ := exec_keeps next
        exact ⟨upholds, lanes⟩
      · obtain rfl := Host.Outcome.next.inj next
        exact ⟨{}, id⟩

/-- Settles O54. -/
theorem boundsKept : Obligations.BoundsKept := by
  intro s t next
  obtain ⟨upholds, lanes⟩ := step_keeps next
  refine ⟨fun ⟨places, overloads, reports, runLog, faults⟩ => ?_, upholds.queues, upholds.fits, lanes⟩
  obtain ⟨places', overloads'⟩ := upholds.port ⟨places, overloads⟩
  exact ⟨places', overloads', upholds.reports reports, upholds.runLog runLog, upholds.faults faults⟩

/-- Settles O55. -/
theorem speedLawKept : Obligations.SpeedLawKept := fun _ _ next => (step_keeps next).1.speeds

/-- Settles O56. -/
theorem gangLawKept : Obligations.GangLawKept := fun _ _ next => (step_keeps next).1.gangs

/-- Settles O57. -/
theorem trainLawKept : Obligations.TrainLawKept := fun _ _ next => (step_keeps next).1.trains

/-- Settles O58. -/
theorem tableLawKept : Obligations.TableLawKept := fun _ _ next => (step_keeps next).1.tables

/-- Settles O59. -/
theorem ringKeepsLockedExtents : Obligations.RingKeepsLockedExtents :=
  fun _ _ _ x next trains tables power release all configure released =>
    (exec_keeps next).ring ⟨power, release, all, configure, released⟩ trains tables x

/-- Settles O60. -/
theorem alarmHeldWhileHoldRuns : Obligations.AlarmHeldWhileHoldRuns :=
  fun _ _ _ next power released => (exec_keeps next).alarm power released

/-- What one commit does to its channel, and to the rest of the state (R46, R70, R83, R87). -/
theorem commit_leaves (s : State) (c : ChannelId) (cause : Cause) (new : Channel) :
    (s.commit c cause new).channel c = new.leave (s.channel c) ∧ s.channelFrame (s.commit c cause new) c ∧
      (s.commit c cause new).queue c = s.queue c ∧ (s.commit c cause new).runLog = s.runLog ∧
      (s.commit c cause new).reports = ((s.changeReport c new cause).foldl State.raise s).reports := by
  rw [commit_eq_played]
  refine ⟨played_channel_self .., ?_, played_queue_self .., ?_, ?_⟩
  · have frame := played_channelFrame (s := s) (c := c) (new := new.leave (s.channel c)) (q := s.queue c)
      (notes := (s.changeReport c new cause).map .report)
    rwa [leave_state] at frame
  · exact noted_runLog_of_reports (entriesOf_reports _)
  · rw [played_reports, noted_reports]

/-- Settles O28. -/
theorem stateChangesReported : Obligations.StateChangesReported := by
  refine ⟨fun s c cause new => ?_, fun i s t c next power release all playback enabled changed => ?_⟩
  · obtain ⟨channel, frame, queue, log, reports⟩ := commit_leaves s c cause new
    refine ⟨channel, frame, queue, log, fun state source => ?_, fun moved => ?_⟩
    · rw [reports, State.changeReport, if_pos ⟨state, source⟩]
      rfl
    · rw [reports, State.changeReport, if_neg (by tauto)]
      rfl
  · obtain ⟨before, x, serial, cause, same, told⟩ :=
      (exec_keeps next).hears ⟨power, release, all, playback⟩ enabled c changed
    refine told.imp id fun ⟨r, body, held⟩ => ?_
    refine ⟨before, x, serial, cause, r.time, r.priority, fun bytes discards timeout => same ?_, ?_⟩
    · rintro (⟨l, b, rfl⟩ | ⟨l, b, rfl⟩ | ⟨l, rfl⟩)
      · exact bytes l b rfl
      · exact discards l b rfl
      · exact timeout l rfl
    · rw [← body]
      exact held

end Sys2Proof.Machine
end
